-- ==== Sys2Proof/Word.lean ====
section
/-! DEFINITION. The word types of VGCODEC (spec/00_scope.md R8, R10): unsigned bytes, 16-bit CRC values and 32-bit registers. -/

namespace Sys2Proof

/-- `BYTE`: an unsigned 8-bit value (R8, R10). -/
abbrev Byte := BitVec 8

/-- `CRC_W`: an unsigned 16-bit value (R8, R10). -/
abbrev Half := BitVec 16

/-- A register of the window (spec/10_state.md R23). -/
abbrev Word := BitVec 32

end Sys2Proof
end

