-- ==== Sys2Proof/Machine/Bits.lean ====
section
/-! DEFINITION. Bit fields and byte order (spec/00_scope.md R10; spec/20_memory.md R51): the only place where either is decided. -/

namespace Sys2Proof.Machine

/-- `lo(v) = v[7:0]` (R10). -/
def lo (v : Half) : Byte := v.extractLsb' 0 8

/-- `hi(v) = v[15:8]` (R10). -/
def hi (v : Half) : Byte := v.extractLsb' 8 8

/-- The four bytes of a word, lowest address first: little-endian (R51). -/
def wordBytes (w : Word) : Byte × Byte × Byte × Byte :=
  (w.extractLsb' 0 8, w.extractLsb' 8 8, w.extractLsb' 16 8, w.extractLsb' 24 8)

/-- The word whose bytes, lowest address first, are `b0 b1 b2 b3` (R51). -/
def wordOfBytes (b0 b1 b2 b3 : Byte) : Word := b3 ++ b2 ++ b1 ++ b0

/-- The first `n` bytes of a number, bits 7:0 first (R51). -/
def leBytes : Nat → Nat → List Byte
  | 0, _ => []
  | n + 1, w => BitVec.ofNat 8 w :: leBytes n (w / 256)

/-- A length as a byte of RSP_ERR; lengths are 0..31 (spec/30_encoding.md R73), so nothing is lost. -/
def lenByte (n : Nat) : Byte := BitVec.ofNat 8 n

end Sys2Proof.Machine
end

