-- ==== Sys2Proof/Syntax.lean ====
section
/-! DEFINITION. The instructions of VGCODEC: one constructor per row of spec/opcode_table.json.
The request rows carry every field of their header word, the ignored ones too, so that no bit of an encoding is dropped
(spec/30_encoding.md R70, R73). -/

namespace Sys2Proof

/-- One row of the opcode table with its operands. `f` is header field F (31:24), `a` field A (23:16), `len` field LEN (12:8). -/
inductive Instr where
  /-- CRC, spec/40_crc.md R102. -/
  | crc (f a : Byte) (len : BitVec 5)
  /-- VALIDATE, spec/42_address_validator.md R141. -/
  | validate (f a : Byte) (len : BitVec 5)
  /-- LOOKUP, spec/41_function_catalog.md R125. -/
  | lookup (f a : Byte) (len : BitVec 5)
  /-- ENCODE, spec/43_encoder.md R150; its words that R84 gives a pseudo-operation are that pseudo-operation's. -/
  | encode (f a : Byte) (len : BitVec 5)
  /-- DECODE, spec/44_decoder.md R170. -/
  | decode (f a : Byte) (len : BitVec 5)
  /-- CLASSIFY_ACK, spec/45_classifier.md R202. -/
  | classifyAck (f a : Byte) (len : BitVec 5)
  /-- CLASSIFY_SENSOR, spec/45_classifier.md R206. -/
  | classifySensor (f a : Byte) (len : BitVec 5)
  /-- ILLEGAL_OP, spec/60_exceptions.md R221: any other header word, by its six fields. -/
  | illegalOp (f a : Byte) (rsv1 : BitVec 3) (len : BitVec 5) (rsv0 : BitVec 4) (op : BitVec 4)
  /-- `go a` = `encode a, 0x41, []` (spec/30_encoding.md R84). -/
  | go (a : Byte)
  /-- `stop a` = `encode a, 0x42, []` (R84). -/
  | stop (a : Byte)
  /-- `status a` = `encode a, 0x43, []` (R84). -/
  | status (a : Byte)
  /-- `setdemand a, d0, d1, d2` = `encode a, 0x44, [d0, d1, d2]` (R84). -/
  | setdemand (a : Byte)
  /-- `readsensor a, s0, s1` = `encode a, 0x45, [s0, s1]` (R84). -/
  | readsensor (a : Byte)
  /-- `storecfg a` = `encode a, 0x65, []` (R84). -/
  | storecfg (a : Byte)
  /-- `readid a, [d...]` = `encode a, 0x46, [d...]` (R84). -/
  | readid (a : Byte) (len : BitVec 5)
  /-- `config a, [d...]` = `encode a, 0x64, [d...]` (R84). -/
  | config (a : Byte) (len : BitVec 5)
  /-- Wire function byte 0x41, spec/41_function_catalog.md R120. -/
  | fnGo
  /-- Wire function byte 0x42 (R120). -/
  | fnStop
  /-- Wire function byte 0x43 (R120). -/
  | fnStatus
  /-- Wire function byte 0x44 (R120). -/
  | fnSetDemand
  /-- Wire function byte 0x45 (R120). -/
  | fnReadSensor
  /-- Wire function byte 0x46 (R120). -/
  | fnReadIdentification
  /-- Wire function byte 0x64 (R120). -/
  | fnConfigurationReadWrite
  /-- Wire function byte 0x65 (R120). -/
  | fnStoreConfiguration
  /-- Wire function byte 0xC1, Message Error (R122). -/
  | fnGoError
  /-- Wire function byte 0xC2, Message Error (R122). -/
  | fnStopError
  /-- Wire function byte 0xC3, Message Error (R122). -/
  | fnStatusError
  /-- Wire function byte 0xC4, Message Error (R122). -/
  | fnSetDemandError
  /-- Wire function byte 0xC5, Message Error (R122). -/
  | fnReadSensorError
  /-- Wire function byte 0xC6, Message Error (R122). -/
  | fnReadIdentificationError
  /-- Wire function byte 0xE4, Message Error (R122). -/
  | fnConfigurationReadWriteError
  /-- Wire function byte 0xE5, Message Error (R122). -/
  | fnStoreConfigurationError
  /-- Wire ack byte 0x10, REPLY_ACK (spec/30_encoding.md R79; spec/45_classifier.md R202). -/
  | ackReply
  /-- Wire ack byte 0x20, COMMAND_ACK (R79, R202). -/
  | ackCommand
  /-- Wire ack byte 0x01 (spec/45_classifier.md R200, R202). -/
  | nack01
  /-- Wire ack byte 0x02 (R200, R202). -/
  | nack02
  /-- Wire ack byte 0x03 (R200, R202). -/
  | nack03
  /-- Wire ack byte 0x04 (R200, R202). -/
  | nack04
  /-- Wire ack byte 0x05 (R200, R202). -/
  | nack05
  /-- Wire ack byte 0x06 (R200, R202). -/
  | nack06
  /-- Wire ack byte 0x07 (R200, R202). -/
  | nack07
  /-- Wire ack byte 0x08 (R200, R202). -/
  | nack08
  /-- Wire ack byte 0x09 (R200, R202). -/
  | nack09
  /-- Wire ack byte 0x0A (R200, R202). -/
  | nack0A
  deriving DecidableEq, Repr

/-- What an instruction is encoded as: a 32-bit request header, or one byte of a wire code map. The table gives the function bytes and
the ack bytes one width but two maps. -/
inductive Encoded where
  /-- A request header word (spec/30_encoding.md R70). -/
  | header (w : Word)
  /-- A byte of the function code map (spec/30_encoding.md R78). -/
  | functionByte (b : Byte)
  /-- A byte of the ack map (spec/30_encoding.md R79). -/
  | ackByte (b : Byte)
  deriving DecidableEq, Repr

end Sys2Proof
end

