-- ==== Sys2Proof/WellFormed.lean ====
section
/-! DEFINITION. Which instruction terms the encoding admits: one term per word (spec/30_encoding.md R71, R74, R84). -/

namespace Sys2Proof

/-- The ENCODE headers that R84 gives a name of their own, told by F and LEN alone. -/
def pseudoWord (f : Byte) (len : BitVec 5) : Bool :=
  (f == 0x41#8 && len == 0#5) || (f == 0x42#8 && len == 0#5) || (f == 0x43#8 && len == 0#5) ||
  (f == 0x44#8 && len == 3#5) || (f == 0x45#8 && len == 2#5) || (f == 0x65#8 && len == 0#5) ||
  f == 0x46#8 || f == 0x64#8

/-- A reserved header (R74): OP 0x0 or 0x8..0xF, or a reserved field that is not zero. -/
def reservedHeader (rsv1 : BitVec 3) (rsv0 op : BitVec 4) : Bool :=
  op == 0#4 || decide (8#4 ≤ op) || rsv0 != 0#4 || rsv1 != 0#3

/-- ENCODE does not stand for a word that is a pseudo-operation's; ILLEGAL_OP stands for reserved headers only.
Every other term has its own word. -/
def Instr.WellFormed : Instr → Bool
  | .encode f _ len => !pseudoWord f len
  | .illegalOp _ _ rsv1 _ rsv0 op => reservedHeader rsv1 rsv0 op
  | .crc _ _ _ | .validate _ _ _ | .lookup _ _ _ | .decode _ _ _ | .classifyAck _ _ _ | .classifySensor _ _ _ => true
  | .go _ | .stop _ | .status _ | .setdemand _ | .readsensor _ | .storecfg _ | .readid _ _ | .config _ _ => true
  | .fnGo | .fnStop | .fnStatus | .fnSetDemand | .fnReadSensor | .fnReadIdentification => true
  | .fnConfigurationReadWrite | .fnStoreConfiguration => true
  | .fnGoError | .fnStopError | .fnStatusError | .fnSetDemandError | .fnReadSensorError | .fnReadIdentificationError => true
  | .fnConfigurationReadWriteError | .fnStoreConfigurationError => true
  | .ackReply | .ackCommand | .nack01 | .nack02 | .nack03 | .nack04 | .nack05 | .nack06 | .nack07 | .nack08 | .nack09 | .nack0A => true

end Sys2Proof
end

