-- ==== Sys2Proof/Decode.lean ====
section
/-! DEFINITION. The decoder, total and rejecting by name, and after it the encoder
(spec/30_encoding.md R70, R71, R74, R78, R79, R84; spec/opcode_table.json). -/

namespace Sys2Proof

/-- Why a sequence of bytes is no instruction. -/
inductive Reject where
  /-- Fewer than the four bytes of a header word (R70). Safe: the machine is given no such request. -/
  | shortHeader
  /-- No byte where a wire byte is read. -/
  | noWireByte
  /-- A byte the function code map does not hold (R78, spec/41_function_catalog.md R124). -/
  | unknownFunctionByte (b : Byte)
  /-- A byte the ack map does not hold (R79). -/
  | unknownAckByte (b : Byte)
  deriving DecidableEq, Repr

/-- Bits 3:0 of a header. -/
def opField (w : Word) : BitVec 4 := w.extractLsb' 0 4
/-- Bits 7:4 of a header. -/
def rsv0Field (w : Word) : BitVec 4 := w.extractLsb' 4 4
/-- Bits 12:8 of a header. -/
def lenField (w : Word) : BitVec 5 := w.extractLsb' 8 5
/-- Bits 15:13 of a header. -/
def rsv1Field (w : Word) : BitVec 3 := w.extractLsb' 13 3
/-- Bits 23:16 of a header. -/
def aField (w : Word) : Byte := w.extractLsb' 16 8
/-- Bits 31:24 of a header. -/
def fField (w : Word) : Byte := w.extractLsb' 24 8

/-- An ENCODE header: a pseudo-operation's where R84 names the word, ENCODE itself otherwise. -/
def decodeEncode (f a : Byte) (len : BitVec 5) : Instr :=
  if f = 0x46#8 then .readid a len
  else if f = 0x64#8 then .config a len
  else if f = 0x41#8 ∧ len = 0#5 then .go a
  else if f = 0x42#8 ∧ len = 0#5 then .stop a
  else if f = 0x43#8 ∧ len = 0#5 then .status a
  else if f = 0x44#8 ∧ len = 3#5 then .setdemand a
  else if f = 0x45#8 ∧ len = 2#5 then .readsensor a
  else if f = 0x65#8 ∧ len = 0#5 then .storecfg a
  else .encode f a len

/-- The operation map (R71), for a header whose reserved fields are zero; none for a reserved OP (R74). -/
def decodeOp (f a : Byte) (len : BitVec 5) (op : BitVec 4) : Option Instr :=
  if op = 0x1#4 then some (.crc f a len)
  else if op = 0x2#4 then some (.validate f a len)
  else if op = 0x3#4 then some (.lookup f a len)
  else if op = 0x4#4 then some (decodeEncode f a len)
  else if op = 0x5#4 then some (.decode f a len)
  else if op = 0x6#4 then some (.classifyAck f a len)
  else if op = 0x7#4 then some (.classifySensor f a len)
  else none

/-- Every header word is an instruction: a reserved one is ILLEGAL_OP (R74; spec/60_exceptions.md R221). -/
def decodeFields (f a : Byte) (rsv1 : BitVec 3) (len : BitVec 5) (rsv0 op : BitVec 4) : Instr :=
  if rsv0 = 0#4 ∧ rsv1 = 0#3 then (decodeOp f a len op).getD (.illegalOp f a rsv1 len rsv0 op)
  else .illegalOp f a rsv1 len rsv0 op

/-- The instruction a REQ_HDR word selects (R70, R71, R74). -/
def decodeHeader (w : Word) : Instr :=
  decodeFields (fField w) (aField w) (rsv1Field w) (lenField w) (rsv0Field w) (opField w)

/-- The function code map (R78), with the Message Error form of each code (spec/41_function_catalog.md R122). -/
def functionByteMap : List (Byte × Instr) :=
  [(0x41#8, .fnGo), (0x42#8, .fnStop), (0x43#8, .fnStatus), (0x44#8, .fnSetDemand), (0x45#8, .fnReadSensor),
   (0x46#8, .fnReadIdentification), (0x64#8, .fnConfigurationReadWrite), (0x65#8, .fnStoreConfiguration)] ++
  [(0xC1#8, .fnGoError), (0xC2#8, .fnStopError), (0xC3#8, .fnStatusError), (0xC4#8, .fnSetDemandError),
   (0xC5#8, .fnReadSensorError), (0xC6#8, .fnReadIdentificationError), (0xE4#8, .fnConfigurationReadWriteError),
   (0xE5#8, .fnStoreConfigurationError)]

/-- The ack map (R79; spec/45_classifier.md R200). -/
def ackByteMap : List (Byte × Instr) :=
  [(0x10#8, .ackReply), (0x20#8, .ackCommand), (0x01#8, .nack01), (0x02#8, .nack02), (0x03#8, .nack03), (0x04#8, .nack04),
   (0x05#8, .nack05), (0x06#8, .nack06), (0x07#8, .nack07), (0x08#8, .nack08), (0x09#8, .nack09), (0x0A#8, .nack0A)]

/-- The first row of a code map with this byte. -/
def byteRow : List (Byte × Instr) → Byte → Option Instr
  | [], _ => none
  | (k, i) :: rows, b => if b = k then some i else byteRow rows b

/-- A wire function byte (R78). -/
def decodeFunctionByte (b : Byte) : Except Reject Instr :=
  match byteRow functionByteMap b with
  | some i => .ok i
  | none => .error (.unknownFunctionByte b)

/-- A wire ack byte (R79). -/
def decodeAckByte (b : Byte) : Except Reject Instr :=
  match byteRow ackByteMap b with
  | some i => .ok i
  | none => .error (.unknownAckByte b)

/-- The decoder, on an encoded instruction. -/
def decode : Encoded → Except Reject Instr
  | .header w => .ok (decodeHeader w)
  | .functionByte b => decodeFunctionByte b
  | .ackByte b => decodeAckByte b

/-- A request header from the bytes of REQ_HDR, lowest offset first (spec/20_memory.md R51), and the bytes after it. -/
def decodeRequestBytes : List Byte → Except Reject (Instr × List Byte)
  | b0 :: b1 :: b2 :: b3 :: rest => .ok (decodeHeader (Machine.wordOfBytes b0 b1 b2 b3), rest)
  | _ => .error .shortHeader

/-- A wire code byte from a byte sequence, and the bytes after it. The two maps share no byte, so one byte is in at most one. -/
def decodeWireBytes : List Byte → Except Reject (Instr × List Byte)
  | b :: rest =>
    match decodeFunctionByte b with
    | .ok i => .ok (i, rest)
    | .error _ =>
      match decodeAckByte b with
      | .ok i => .ok (i, rest)
      | .error e => .error e
  | [] => .error .noWireByte

/-- The host's question: the instruction whose bits, numbered as the opcode table numbers them, are `w`. A request row is 32 bits wide;
the rows that are narrower are wire bytes (log entry 8). -/
def decodeTableWord (nbits w : Nat) : Option Instr :=
  match (if nbits < 32 then decodeWireBytes (Machine.leBytes (max 1 (nbits / 8)) w) else decodeRequestBytes (Machine.leBytes 4 w)) with
  | .ok (i, _) => some i
  | .error _ => none

/-- A header word from its fields, most significant first: `FFFFFFFF AAAAAAAA 000LLLLL 0000OOOO` (R70). -/
def headerOfFields (f a : Byte) (rsv1 : BitVec 3) (len : BitVec 5) (rsv0 op : BitVec 4) : Word :=
  f ++ a ++ rsv1 ++ len ++ rsv0 ++ op

/-- A legal header word: reserved fields zero (R70). -/
def header (f a : Byte) (len : BitVec 5) (op : BitVec 4) : Word := headerOfFields f a 0#3 len 0#4 op

/-- The header of `lookup f` (spec/30_encoding.md R83: unused fields assemble as 0). -/
def lookupHeader (f : Byte) : Word := header f 0#8 0#5 0x3#4

/-- The header of `cack k` (R83). -/
def ackHeader (k : Byte) : Word := header 0#8 k 0#5 0x6#4

/-- The encoder (R70, R71, R78, R79, R84; spec/opcode_table.json). -/
def encode : Instr → Encoded
  | .crc f a len => .header (header f a len 0x1#4)
  | .validate f a len => .header (header f a len 0x2#4)
  | .lookup f a len => .header (header f a len 0x3#4)
  | .encode f a len => .header (header f a len 0x4#4)
  | .decode f a len => .header (header f a len 0x5#4)
  | .classifyAck f a len => .header (header f a len 0x6#4)
  | .classifySensor f a len => .header (header f a len 0x7#4)
  | .illegalOp f a rsv1 len rsv0 op => .header (headerOfFields f a rsv1 len rsv0 op)
  | .go a => .header (header 0x41#8 a 0#5 0x4#4)
  | .stop a => .header (header 0x42#8 a 0#5 0x4#4)
  | .status a => .header (header 0x43#8 a 0#5 0x4#4)
  | .setdemand a => .header (header 0x44#8 a 3#5 0x4#4)
  | .readsensor a => .header (header 0x45#8 a 2#5 0x4#4)
  | .storecfg a => .header (header 0x65#8 a 0#5 0x4#4)
  | .readid a len => .header (header 0x46#8 a len 0x4#4)
  | .config a len => .header (header 0x64#8 a len 0x4#4)
  | .fnGo => .functionByte 0x41#8
  | .fnStop => .functionByte 0x42#8
  | .fnStatus => .functionByte 0x43#8
  | .fnSetDemand => .functionByte 0x44#8
  | .fnReadSensor => .functionByte 0x45#8
  | .fnReadIdentification => .functionByte 0x46#8
  | .fnConfigurationReadWrite => .functionByte 0x64#8
  | .fnStoreConfiguration => .functionByte 0x65#8
  | .fnGoError => .functionByte 0xC1#8
  | .fnStopError => .functionByte 0xC2#8
  | .fnStatusError => .functionByte 0xC3#8
  | .fnSetDemandError => .functionByte 0xC4#8
  | .fnReadSensorError => .functionByte 0xC5#8
  | .fnReadIdentificationError => .functionByte 0xC6#8
  | .fnConfigurationReadWriteError => .functionByte 0xE4#8
  | .fnStoreConfigurationError => .functionByte 0xE5#8
  | .ackReply => .ackByte 0x10#8
  | .ackCommand => .ackByte 0x20#8
  | .nack01 => .ackByte 0x01#8
  | .nack02 => .ackByte 0x02#8
  | .nack03 => .ackByte 0x03#8
  | .nack04 => .ackByte 0x04#8
  | .nack05 => .ackByte 0x05#8
  | .nack06 => .ackByte 0x06#8
  | .nack07 => .ackByte 0x07#8
  | .nack08 => .ackByte 0x08#8
  | .nack09 => .ackByte 0x09#8
  | .nack0A => .ackByte 0x0A#8

end Sys2Proof
end

