-- ==== Sys2Proof/Config.lean ====
section
/-! DEFINITION. The parameters the spec leaves OPEN (spec/00_scope.md R9; spec/92_eei_decisions.md D16, D17, D20, D38). Each is a
constant with no body: a claim holds whatever it is. Log entries 5 and 10. -/

namespace Sys2Proof

/-- `SENSOR_FAULT_INDEX`: which of the four payload bytes of a Read-Sensor reply is the fault byte (spec/45_classifier.md R204, R205). -/
opaque Config.sensorFaultIndex : Fin 4

/-- Which of the 220 byte values outside 0x21..0x44, in rising order, is `SENSOR_NO_FAULT` (R204: "OPEN, outside 0x21..0x44"). -/
opaque Config.sensorNoFaultRank : Fin 220

/-- Which codes of 0x21..0x44 the sensor-fault ROM defines (R204); read only inside that range. -/
opaque Config.sensorFaultDefined : Byte → Bool

/-- `SFAULT_DESC`: the host's description of a sensor fault (R204). -/
opaque Config.sensorFaultDesc : Byte → String

/-- `NACK_RETRYABLE`: the retry hint of the NACK codes the source does not settle (R200, R201). -/
opaque Config.nackRetryable : Byte → Bool

/-- `NACK_DESC`: the host's description of the NACK codes whose text is lost (R200). -/
opaque Config.nackDesc : Byte → String

/-- `WINDOW_BASE`: where the register window stands in the host's address space (spec/20_memory.md R57, D38). -/
opaque Config.windowBase : Nat

end Sys2Proof
end

