-- ==== Sys2Proof/Machine/Params.lean ====
section
/-! DEFINITION. The fixed values of spec/00_scope.md R8, the request buffer's size (R9, D7), the timing constants of spec/10_state.md R35,
and the two OPEN sensor parameters in the form the rules read them (spec/45_classifier.md R204). -/

namespace Sys2Proof.Machine

/-- `CRC_INIT`. -/
def crcInit : Half := 0xFFFF#16
/-- `CRC_POLY_REFL`. -/
def crcPolyRefl : Half := 0xA001#16
/-- `HDR_LEN`, in bytes. -/
def hdrLen : Nat := 3
/-- `CRC_LEN`, in bytes. -/
def crcLen : Nat := 2
/-- `DATA_MAX`, in bytes. -/
def dataMax : Nat := 11
/-- `FRAME_MIN`, in bytes. -/
def frameMin : Nat := 5
/-- `FRAME_MAX`, in bytes. -/
def frameMax : Nat := 16
/-- `COMMAND_ACK`. -/
def commandAck : Byte := 0x20#8
/-- `REPLY_ACK`. -/
def replyAck : Byte := 0x10#8
/-- `ADDR_BCAST`. -/
def addrBcast : Byte := 0x00#8
/-- `ADDR_LO`. -/
def addrLo : Byte := 0x15#8
/-- `ADDR_HI`. -/
def addrHi : Byte := 0xF7#8
/-- `NACK_LO`. -/
def nackLo : Byte := 0x01#8
/-- `NACK_HI`. -/
def nackHi : Byte := 0x0A#8
/-- `SFAULT_LO`. -/
def sfaultLo : Byte := 0x21#8
/-- `SFAULT_HI`. -/
def sfaultHi : Byte := 0x44#8
/-- `BUF_MAX`, in bytes (R9, D7). -/
def bufMax : Nat := 31

/-- 3.5 character times in half characters (R35). -/
def tIdleHalfchars : Word := 7#32
/-- The shortest wait between command and reply, in microseconds (R35). -/
def tMinReplyUs : Word := 4000#32
/-- The longest wait for an ordinary reply, in microseconds (R35). -/
def tMaxReplyUs : Word := 10000#32
/-- The longest wait for a Store-Configuration reply, in microseconds (R35). -/
def tMaxStoreUs : Word := 1000000#32

/-- Inside 0x21..0x44 (spec/30_encoding.md R81). -/
def inSensorFaultRange (b : Byte) : Bool := decide (sfaultLo ≤ b) && decide (b ≤ sfaultHi)

/-- `SENSOR_FAULT_PRESENT`: false outside 0x21..0x44, OPEN inside (R204). -/
def sensorFaultPresent (b : Byte) : Bool := inSensorFaultRange b && Config.sensorFaultDefined b

/-- `SENSOR_NO_FAULT`: any one value outside 0x21..0x44 (R204), found from its rank among them. -/
def sensorNoFault : Byte :=
  if Config.sensorNoFaultRank.val < 0x21 then BitVec.ofNat 8 Config.sensorNoFaultRank.val
  else BitVec.ofNat 8 (Config.sensorNoFaultRank.val + 36)

/-- `SENSOR_FAULT_INDEX` (R204). -/
def sensorFaultIndex : Nat := Config.sensorFaultIndex.val

end Sys2Proof.Machine
end

