-- ==== Sys2Proof/Machine/State.lean ====
section
/-! DEFINITION. All the state the spec gives VGCODEC (spec/10_state.md), as plain data, with the host's pending accesses; the reasons a
step can stop; and the state after reset (spec/10_state.md R41). -/

namespace Sys2Proof.Machine

/-- A byte array in canonical form: (index, byte) pairs, indexes strictly rising. An unlisted index holds no value
(spec/10_state.md R38), so no entry can equal what an unlisted index reads as. -/
abbrev Memory := List Host.Cell

/-- The width of a host access (spec/20_memory.md R54). -/
inductive Width where
  | b8 | b16 | b32 | b64
  deriving DecidableEq, Repr

/-- What the host does next. Hosts are numbered; number 0 is THE host (spec/20_memory.md R58). -/
inductive HostAction where
  /-- A load from a window offset. -/
  | read (who : Nat) (width : Width) (off : Nat)
  /-- A store to a window offset; the low bits of `data` up to the width count. -/
  | write (who : Nat) (width : Width) (off : Nat) (data : BitVec 64)
  /-- The request that looks a wire function byte up, with its unused fields 0 (log entry 2). -/
  | functionByte (b : Byte)
  /-- The request that classifies a wire ack byte, with its unused fields 0 (log entry 2). -/
  | ackByte (b : Byte)
  /-- Reset asserted (spec/70_reset_and_hazards.md R250, R251). -/
  | reset
  deriving DecidableEq, Repr

/-- One value the host has read (spec/70_reset_and_hazards.md R260). -/
structure ReadRecord where
  /-- The width of the load. -/
  width : Width
  /-- The window offset. -/
  off : Nat
  /-- The value, an 8-bit one zero-extended. -/
  value : Word
  deriving DecidableEq, Repr

/-- The machine. `none` in a register, and an index a byte array does not list, is the spec's "holds no value" (R38). -/
structure State where
  /-- REQ_HDR, R24. -/
  reqHdr : Option Word
  /-- REQ_BUF[0..30], R25. -/
  reqBuf : Memory
  /-- CTRL_STAT bit 0, R26. -/
  busy : Bool
  /-- CTRL_STAT bit 1, R26. -/
  rspValid : Bool
  /-- RSP_HDR, R27. -/
  rspHdr : Option Word
  /-- RSP_ERR, R28. -/
  rspErr : Option Word
  /-- OBUF[0..15], group ENC, R29. -/
  obuf : Memory
  /-- OLEN, group ENC, R29. -/
  olen : Option Word
  /-- CRC_RES, group CRC, R30. -/
  crcRes : Option Word
  /-- DESC, group DESC, R31. -/
  desc : Option Word
  /-- MSG_HDR, group MSG, R32. -/
  msgHdr : Option Word
  /-- MSG_CRC, group MSG, R32. -/
  msgCrc : Option Word
  /-- M_DATA[0..10], group MSG, R32. -/
  mData : Memory
  /-- ACK_RES, group ACK, R33. -/
  ackRes : Option Word
  /-- SENS_RES, group SENS, R34. -/
  sensRes : Option Word
  /-- The MODEL's own: what the host will do, oldest first (log entry 1). -/
  host : List HostAction
  /-- The MODEL's own: what the host has read since its last request, newest first (log entry 1). -/
  reads : List ReadRecord
  /-- The MODEL's own: for each request so far, newest first, what the host had read between the request before it and it
  (spec/70_reset_and_hazards.md R260; log entries 1 and 18). -/
  earlierReads : List (List ReadRecord)
  deriving DecidableEq, Repr

/-- The one way the machine stops with a fault. -/
inductive Fault where
  /-- A byte or register that holds no value was read: by a host load, or by an operation that needs `REQ.BUF[i]` with i < LEN
  (spec/10_state.md R25, R38; spec/20_memory.md R52; spec/60_exceptions.md R236). `off` is the window offset of the (first such) byte or
  register. Safe: hardware goes on with some value the spec does not give. -/
  | valuelessRead (off : Nat)
  deriving DecidableEq, Repr

/-- The accesses the model gives no meaning (spec/60_exceptions.md R236; spec/93_implementation_defined.md section 2). -/
inductive Refusal where
  /-- An instruction with no meaning yet: none is left. Safe. -/
  | notModelled (mnemonic : String)
  /-- A host access that spec/20_memory.md R54 does not allow: a width, an alignment or an offset. Safe: hardware unspecified. -/
  | illegalAccess (off : Nat)
  /-- A write to REQ_HDR or REQ_BUF while BUSY = 1 (spec/70_reset_and_hazards.md R255). Safe: hardware unspecified. -/
  | writeWhileBusy
  /-- A response register that holds a value, read while RSP_VALID = 0 (spec/70_reset_and_hazards.md R255, D27). Safe. -/
  | responseNotValid (off : Nat)
  /-- An access by a second host (spec/20_memory.md R58). Safe: not supported on hardware. -/
  | secondHost (who : Nat)
  deriving DecidableEq, Repr

/-- The machine right after reset (R41, R250); the host has done and read nothing. -/
def State.reset : State where
  reqHdr := none
  reqBuf := []
  busy := false
  rspValid := false
  rspHdr := none
  rspErr := none
  obuf := []
  olen := none
  crcRes := none
  desc := none
  msgHdr := none
  msgCrc := none
  mData := []
  ackRes := none
  sensRes := none
  host := []
  reads := []
  earlierReads := []

end Sys2Proof.Machine
end

