-- ==== Sys2Proof/Machine/Flags.lean ====
section
/-! DEFINITION. The statuses and the single-bit status values of VGCODEC (spec/10_state.md R26, R27, R40; spec/30_encoding.md R72;
spec/60_exceptions.md R231). -/

namespace Sys2Proof.Machine

/-- The outcomes of an operation (R72). -/
inductive Status where
  | ok
  | invalidAddress
  | invalidFunctionCode
  | unknownFunctionCode
  | dataLengthOutOfRange
  | malformedFrame
  | crcMismatch
  | addressMismatch
  | unknownNackCode
  | unknownSensorFault
  | illegalOp
  deriving DecidableEq, Repr

/-- The code of a status in RSP_HDR (R72). -/
def Status.code : Status → BitVec 4
  | .ok => 0x0#4
  | .invalidAddress => 0x1#4
  | .invalidFunctionCode => 0x2#4
  | .unknownFunctionCode => 0x3#4
  | .dataLengthOutOfRange => 0x4#4
  | .malformedFrame => 0x5#4
  | .crcMismatch => 0x6#4
  | .addressMismatch => 0x7#4
  | .unknownNackCode => 0x8#4
  | .unknownSensorFault => 0x9#4
  | .illegalOp => 0xF#4

/-- `Retry(K)` for a failure K (R231). -/
def Status.retry : Status → Bool
  | .crcMismatch | .malformedFrame => true
  | .ok | .invalidAddress | .invalidFunctionCode | .unknownFunctionCode | .dataLengthOutOfRange => false
  | .addressMismatch | .unknownNackCode | .unknownSensorFault | .illegalOp => false

/-- RSP_HDR: RES_OP 11:8, RETRY 4, STATUS 3:0, the rest 0 (R27). -/
def rspHdrWord (op : BitVec 4) (retry : Bool) (st : Status) : Word :=
  0#20 ++ op ++ 0#3 ++ BitVec.ofBool retry ++ st.code

/-- CTRL_STAT: RSP_VALID bit 1, BUSY bit 0, the rest 0 (R26). -/
def ctrlStatWord (busy rspValid : Bool) : Word :=
  0#30 ++ BitVec.ofBool rspValid ++ BitVec.ofBool busy

/-- STATUS of a RSP_HDR word (R27). -/
def statusField (h : Word) : BitVec 4 := h.extractLsb' 0 4

/-- RETRY of a RSP_HDR word (R27). -/
def retryField (h : Word) : Bool := h.getLsbD 4

/-- RES_OP of a RSP_HDR word (R27). -/
def resOpField (h : Word) : BitVec 4 := h.extractLsb' 8 4

end Sys2Proof.Machine
end

