-- ==== Sys2Proof/Machine/Ops.lean ====
section
/-! DEFINITION. The shared operations: starting an operation, writing its response, `raise` and `done`
(spec/10_state.md R39; spec/60_exceptions.md R220, R222). VGCODEC has no exception entry and no return from one (R226, R227):
`raise` is what stands in their place. -/

namespace Sys2Proof.Machine

/-- A failure: its kind and its offending bytes (R222, R223). -/
structure Failure where
  /-- The kind. -/
  kind : Status
  /-- E0. -/
  e0 : Byte
  /-- E1. -/
  e1 : Byte
  /-- E2. -/
  e2 : Byte
  /-- E3. -/
  e3 : Byte
  deriving DecidableEq, Repr

/-- A decoded reply (spec/44_decoder.md R177). -/
structure Message where
  /-- The address byte. -/
  addr : Byte
  /-- The base function code. -/
  func : BitVec 7
  /-- Is it an error reply? -/
  err : Bool
  /-- The ack byte, unresolved. -/
  ack : Byte
  /-- The data bytes. -/
  data : List Byte
  /-- The received CRC, low byte. -/
  crcLo : Byte
  /-- The received CRC, high byte. -/
  crcHi : Byte
  deriving DecidableEq, Repr

/-- What an operation writes on status OK: its own output group, or nothing for VALIDATE (R39). -/
inductive Output where
  /-- VALIDATE has no group. -/
  | nothing
  /-- Group ENC. -/
  | enc (frame : List Byte)
  /-- Group CRC. -/
  | crc (c : Half)
  /-- Group DESC. -/
  | desc (w : Word)
  /-- Group MSG. -/
  | msg (m : Message)
  /-- Group ACK. -/
  | ack (w : Word)
  /-- Group SENS. -/
  | sens (w : Word)
  deriving DecidableEq, Repr

/-- How an operation's pseudocode ends: `raise K(...)`, or `done` with RETRY and the group it wrote (R222). -/
inductive Result where
  /-- `raise`. -/
  | failed (x : Failure)
  /-- `done`. -/
  | done (retry : Bool) (o : Output)
  deriving DecidableEq, Repr

/-- RSP_ERR: `e0 | e1 << 8 | e2 << 16 | e3 << 24` (R222; spec/10_state.md R28). -/
def Failure.errWord (x : Failure) : Word := wordOfBytes x.e0 x.e1 x.e2 x.e3

/-- MSG_HDR: M_DLEN 27:24, M_ACK 23:16, M_ERR 15, M_FUNC 14:8, M_ADDR 7:0 (spec/10_state.md R32). -/
def Message.hdrWord (m : Message) : Word :=
  0#4 ++ BitVec.ofNat 4 m.data.length ++ m.ack ++ BitVec.ofBool m.err ++ m.func ++ m.addr

/-- MSG_CRC: M_CRCHI 15:8, M_CRCLO 7:0 (spec/10_state.md R32). -/
def Message.crcWord (m : Message) : Word := 0#16 ++ m.crcHi ++ m.crcLo

/-- The write of REQ_HDR: all 32 bits are stored, BUSY is set and RSP_VALID cleared (spec/10_state.md R24, R39 step 1). What the host has read
since the request before it is put with that request (spec/70_reset_and_hazards.md R260). -/
def State.acceptRequest (w : Word) (s : State) : State :=
  { s with reqHdr := some w, busy := true, rspValid := false, reads := [], earlierReads := s.reads :: s.earlierReads }

/-- Every output group holds no value (R39 step 5). -/
def State.clearOutputs (s : State) : State :=
  { s with obuf := [], olen := none, crcRes := none, desc := none, msgHdr := none, msgCrc := none, mData := [], ackRes := none, sensRes := none }

/-- The response registers are written and the operation ends (R39 steps 3, 5 and 6). -/
def State.complete (hdr err : Word) (s : State) : State :=
  { s.clearOutputs with rspHdr := some hdr, rspErr := some err, busy := false, rspValid := true }

/-- `MemWrite(i, n, v)` to OBUF (spec/20_memory.md R53). -/
def State.memWrite (i : Nat) (v : List Byte) (s : State) : State := { s with obuf := Memory.writeBytes s.obuf i v }

/-- An operation's own output group holds what its pseudocode wrote (R39 step 4; R29 to R34). -/
def State.put (o : Output) (s : State) : State :=
  match o with
  | .nothing => s
  | .enc frame => { s.memWrite 0 frame with olen := some (BitVec.ofNat 32 frame.length) }
  | .crc c => { s with crcRes := some (c.setWidth 32) }
  | .desc w => { s with desc := some w }
  | .msg m => { s with msgHdr := some m.hdrWord, msgCrc := some m.crcWord, mData := Memory.writeBytes s.mData 0 m.data }
  | .ack w => { s with ackRes := some w }
  | .sens w => { s with sensRes := some w }

/-- `raise K(e0, e1, e2, e3)`: STATUS, RETRY, RES_OP and RSP_ERR are written, every output group holds no value, the operation ends (R222). -/
def State.raise (op : BitVec 4) (x : Failure) (s : State) : State := s.complete (rspHdrWord op x.kind.retry x.kind) x.errWord

/-- `done`: STATUS OK, RSP_ERR 0, RES_OP, RETRY as the operation sets it, and its own group (R222). -/
def State.done (op : BitVec 4) (retry : Bool) (o : Output) (s : State) : State := (s.complete (rspHdrWord op retry .ok) 0#32).put o

/-- The response of an operation (R39, R222). -/
def State.respond (op : BitVec 4) (r : Result) (s : State) : State :=
  match r with
  | .failed x => s.raise op x
  | .done retry o => s.done op retry o

end Sys2Proof.Machine
end

