-- ==== Sys2Proof/Machine/Address.lean ====
section
/-! DEFINITION. The address validator and the operation VALIDATE (spec/42_address_validator.md). -/

namespace Sys2Proof.Machine

/-- `AddrValid(a)` (R140). -/
def addrValid (a : Byte) : Bool :=
  a == addrBcast || (a.getLsbD 0 && decide (addrLo ≤ a) && decide (a ≤ addrHi))

/-- The result of VALIDATE (R141). -/
def validateResult (a : Byte) : Result :=
  if addrValid a then .done false .nothing else .failed ⟨.invalidAddress, a, 0#8, 0#8, 0#8⟩

/-- VALIDATE: F, LEN and BUF are ignored (R141). -/
def execValidate (_f a : Byte) (_len : BitVec 5) (s : State) : Host.Outcome State Fault Refusal :=
  .next (s.respond 0x2#4 (validateResult a))

end Sys2Proof.Machine
end

