-- ==== Sys2Proof/Machine/Operands.lean ====
section
/-! DEFINITION. The operand forms (spec/30_encoding.md R73; spec/20_memory.md R52; spec/00_scope.md R11). Operands A and F are bytes taken
as they stand from the instruction; the third form is the byte sequence REQ.BUF[0 .. LEN]. -/

namespace Sys2Proof.Machine

/-- Where REQ_BUF stands in the window (spec/10_state.md R23). -/
def reqBufBase : Nat := 0x10

/-- `MemRead(i, n)`: the bytes REQ.BUF[i .. i+n], or the index of the first that holds no value (R52). -/
def State.memRead (i n : Nat) (s : State) : Except Nat (List Byte) := Memory.readBytes s.reqBuf i n

/-- Go on with MemRead(i, n); a byte that holds no value is a fault of the host program (spec/10_state.md R25, R38). -/
def withMemRead (i n : Nat) (s : State) (k : List Byte → Host.Outcome State Fault Refusal) : Host.Outcome State Fault Refusal :=
  match s.memRead i n with
  | .ok d => k d
  | .error j => .fault (.valuelessRead (reqBufBase + j))

/-- `s[i .. j]`: from index i inclusive to index j exclusive, empty when j ≤ i (R11). -/
def slice (s : List Byte) (i j : Nat) : List Byte := (s.drop i).take (j - i)

/-- `s[i]` for an index inside the sequence. The 0 is never read: every caller has checked the length (log entry 12). -/
def elemAt (s : List Byte) (i : Nat) : Byte := s.getD i 0#8

/-- The base function code `c & 0x7F` (R14). -/
def baseCode (c : Byte) : BitVec 7 := c.extractLsb' 0 7

/-- ERR_BIT, bit 7 of a function byte (spec/30_encoding.md R77). -/
def errBit (c : Byte) : Bool := c.getLsbD 7

end Sys2Proof.Machine
end

