-- ==== Sys2Proof/Machine/Catalog.lean ====
section
/-! DEFINITION. The function-code descriptor ROM, its lookup, the operation LOOKUP and the 16 wire function bytes
(spec/41_function_catalog.md). -/

namespace Sys2Proof.Machine

/-- A length of a descriptor: its kind and, for FIXED, its byte count (R120). -/
inductive FrameLength where
  /-- FIXED, kind 0. -/
  | fixed (n : BitVec 5)
  /-- VARIABLE, kind 1. -/
  | varying
  /-- NONE, kind 2. -/
  | absent
  deriving DecidableEq, Repr

/-- D_CMD_KIND or D_RPL_KIND (spec/10_state.md R31). -/
def FrameLength.kind : FrameLength → BitVec 2
  | .fixed _ => 0#2
  | .varying => 1#2
  | .absent => 2#2

/-- D_CMD_LEN or D_RPL_LEN: 0 unless FIXED (spec/10_state.md R31). -/
def FrameLength.len : FrameLength → BitVec 5
  | .fixed n => n
  | .varying => 0#5
  | .absent => 0#5

/-- A descriptor of the ROM (R120). -/
structure Descriptor where
  /-- D_NAME (R121). -/
  nameId : BitVec 4
  /-- The name, for the host (R120). -/
  name : String
  /-- The command length. -/
  cmd : FrameLength
  /-- The reply length. -/
  rpl : FrameLength
  deriving DecidableEq, Repr

/-- The rows of the ROM (R120, R121). -/
def descriptorRom : List (BitVec 7 × Descriptor) :=
  [(0x41#7, ⟨0#4, "Go", .fixed 5#5, .fixed 5#5⟩),
   (0x42#7, ⟨1#4, "Stop", .fixed 5#5, .fixed 5#5⟩),
   (0x43#7, ⟨2#4, "Status", .fixed 5#5, .fixed 6#5⟩),
   (0x44#7, ⟨3#4, "Set Demand", .fixed 8#5, .fixed 8#5⟩),
   (0x45#7, ⟨4#4, "Read Sensor", .fixed 7#5, .fixed 9#5⟩),
   (0x46#7, ⟨5#4, "Read Identification", .varying, .varying⟩),
   (0x64#7, ⟨6#4, "Configuration Read/Write", .varying, .varying⟩),
   (0x65#7, ⟨7#4, "Store Configuration", .fixed 5#5, .fixed 5#5⟩)]

/-- The shared Message Error descriptor (R122). -/
def messageError : Descriptor := ⟨8#4, "Message Error", .absent, .varying⟩

/-- The row of a base code. -/
def romRow : List (BitVec 7 × Descriptor) → BitVec 7 → Option Descriptor
  | [], _ => none
  | (k, d) :: rows, b => if b = k then some d else romRow rows b

/-- `ROM[b]`, for b in SEEDED (R120, R121). -/
def descriptorOf (b : BitVec 7) : Option Descriptor := romRow descriptorRom b

/-- What `Lookup` answers (R124). -/
structure LookupAnswer where
  /-- D_KIND: is it the shared Message Error descriptor? -/
  kind : Bool
  /-- D_BASE. -/
  base : BitVec 7
  /-- The descriptor. -/
  desc : Descriptor
  deriving DecidableEq, Repr

/-- `Lookup(c)`; none is its failure UnknownFunctionCode (R124). -/
def lookup (c : Byte) : Option LookupAnswer :=
  match descriptorOf (baseCode c) with
  | none => none
  | some d => if errBit c then some ⟨true, baseCode c, messageError⟩ else some ⟨false, baseCode c, d⟩

/-- DESC (spec/10_state.md R31). -/
def LookupAnswer.word (r : LookupAnswer) : Word :=
  0#6 ++ r.desc.rpl.len ++ r.desc.rpl.kind ++ r.desc.cmd.len ++ r.desc.cmd.kind ++ r.desc.nameId ++ BitVec.ofBool r.kind ++ r.base

/-- The result of LOOKUP (R125). -/
def lookupResult (f : Byte) : Result :=
  match lookup f with
  | some r => .done false (.desc r.word)
  | none => .failed ⟨.unknownFunctionCode, f, 0#8, 0#8, 0#8⟩

/-- The lookup of a code, as an operation. -/
def lookupOp (f : Byte) (s : State) : Host.Outcome State Fault Refusal := .next (s.respond 0x3#4 (lookupResult f))

/-- LOOKUP: A, LEN and BUF are ignored (R125). -/
def execLookup (f _a : Byte) (_len : BitVec 5) (s : State) : Host.Outcome State Fault Refusal := lookupOp f s

/-- Function byte 0x41 looked up (R120, R125). -/
def execFnGo (s : State) : Host.Outcome State Fault Refusal := lookupOp 0x41#8 s
/-- Function byte 0x42 looked up (R120, R125). -/
def execFnStop (s : State) : Host.Outcome State Fault Refusal := lookupOp 0x42#8 s
/-- Function byte 0x43 looked up (R120, R125). -/
def execFnStatus (s : State) : Host.Outcome State Fault Refusal := lookupOp 0x43#8 s
/-- Function byte 0x44 looked up (R120, R125). -/
def execFnSetDemand (s : State) : Host.Outcome State Fault Refusal := lookupOp 0x44#8 s
/-- Function byte 0x45 looked up (R120, R125). -/
def execFnReadSensor (s : State) : Host.Outcome State Fault Refusal := lookupOp 0x45#8 s
/-- Function byte 0x46 looked up (R120, R125). -/
def execFnReadIdentification (s : State) : Host.Outcome State Fault Refusal := lookupOp 0x46#8 s
/-- Function byte 0x64 looked up (R120, R125). -/
def execFnConfigurationReadWrite (s : State) : Host.Outcome State Fault Refusal := lookupOp 0x64#8 s
/-- Function byte 0x65 looked up (R120, R125). -/
def execFnStoreConfiguration (s : State) : Host.Outcome State Fault Refusal := lookupOp 0x65#8 s
/-- Function byte 0xC1 looked up (R122, R125). -/
def execFnGoError (s : State) : Host.Outcome State Fault Refusal := lookupOp 0xC1#8 s
/-- Function byte 0xC2 looked up (R122, R125). -/
def execFnStopError (s : State) : Host.Outcome State Fault Refusal := lookupOp 0xC2#8 s
/-- Function byte 0xC3 looked up (R122, R125). -/
def execFnStatusError (s : State) : Host.Outcome State Fault Refusal := lookupOp 0xC3#8 s
/-- Function byte 0xC4 looked up (R122, R125). -/
def execFnSetDemandError (s : State) : Host.Outcome State Fault Refusal := lookupOp 0xC4#8 s
/-- Function byte 0xC5 looked up (R122, R125). -/
def execFnReadSensorError (s : State) : Host.Outcome State Fault Refusal := lookupOp 0xC5#8 s
/-- Function byte 0xC6 looked up (R122, R125). -/
def execFnReadIdentificationError (s : State) : Host.Outcome State Fault Refusal := lookupOp 0xC6#8 s
/-- Function byte 0xE4 looked up (R122, R125). -/
def execFnConfigurationReadWriteError (s : State) : Host.Outcome State Fault Refusal := lookupOp 0xE4#8 s
/-- Function byte 0xE5 looked up (R122, R125). -/
def execFnStoreConfigurationError (s : State) : Host.Outcome State Fault Refusal := lookupOp 0xE5#8 s

end Sys2Proof.Machine
end

