-- ==== Sys2Proof/Machine/Classifier.lean ====
section
/-! DEFINITION. The NACK and sensor-fault classifier: the operations CLASSIFY_ACK and CLASSIFY_SENSOR and the 12 wire ack bytes
(spec/45_classifier.md). -/

namespace Sys2Proof.Machine

/-- `NackPresent(k)` (R201). -/
def nackPresent (k : Byte) : Bool := decide (nackLo ≤ k) && decide (k ≤ nackHi)

/-- `NackRetry(k)`: 0 for 0x04, 1 for 0x06, OPEN for every other present code (R200, R201). -/
def nackRetry (k : Byte) : Bool := if k = 0x04#8 then false else if k = 0x06#8 then true else Config.nackRetryable k

/-- The NACK ROM's description column, for the host; no register holds it (R200). -/
def nackDescription (k : Byte) : Option String :=
  if k = 0x02#8 then some "Operand out of allowed range"
  else if k = 0x04#8 then some "General failure: fault mode"
  else if k = 0x06#8 then some "Command cannot be executed now"
  else if nackPresent k then some (Config.nackDesc k)
  else none

/-- The sensor-fault ROM's description column, for the host; no register holds it (R204). -/
def sensorFaultDescription (b : Byte) : Option String := if sensorFaultPresent b then some (Config.sensorFaultDesc b) else none

/-- ACLASS (spec/10_state.md R33). -/
inductive AckClass where
  | success | command | nack
  deriving DecidableEq, Repr

/-- The code of ACLASS (R33). -/
def AckClass.code : AckClass → BitVec 2
  | .success => 0#2
  | .command => 1#2
  | .nack => 2#2

/-- SCLASS (spec/10_state.md R34). -/
inductive SensorClass where
  | notApplicable | noFault | fault
  deriving DecidableEq, Repr

/-- The code of SCLASS (R34). -/
def SensorClass.code : SensorClass → BitVec 2
  | .notApplicable => 0#2
  | .noFault => 1#2
  | .fault => 2#2

/-- ACK_RES: NACK_CODE 15:8, ACLASS 1:0 (spec/10_state.md R33). -/
def ackResWord (c : AckClass) (code : Byte) : Word := 0#16 ++ code ++ 0#6 ++ c.code

/-- SENS_RES: FAULT_CODE 15:8, SCLASS 1:0 (spec/10_state.md R34). -/
def sensResWord (c : SensorClass) (code : Byte) : Word := 0#16 ++ code ++ 0#6 ++ c.code

/-- The result of CLASSIFY_ACK (R202). -/
def classifyAckResult (k : Byte) : Result :=
  if k = replyAck then .done false (.ack (ackResWord .success 0#8))
  else if k = commandAck then .done false (.ack (ackResWord .command 0#8))
  else if nackPresent k then .done (nackRetry k) (.ack (ackResWord .nack k))
  else .failed ⟨.unknownNackCode, k, 0#8, 0#8, 0#8⟩

/-- The classification of an ack byte, as an operation. -/
def classifyAckOp (k : Byte) (s : State) : Host.Outcome State Fault Refusal := .next (s.respond 0x6#4 (classifyAckResult k))

/-- CLASSIFY_ACK: F, LEN and BUF are ignored (R202). -/
def execClassifyAck (_f a : Byte) (_len : BitVec 5) (s : State) : Host.Outcome State Fault Refusal := classifyAckOp a s

/-- The result of CLASSIFY_SENSOR for a fault byte (R206). -/
def sensorByteResult (b : Byte) : Result :=
  if b = sensorNoFault then .done false (.sens (sensResWord .noFault 0#8))
  else if sensorFaultPresent b then .done false (.sens (sensResWord .fault b))
  else .failed ⟨.unknownSensorFault, b, 0#8, 0#8, 0#8⟩

/-- CLASSIFY_SENSOR: A is ignored; only a Read-Sensor reply whose payload reaches the fault byte is looked at (R206, R207). -/
def execClassifySensor (f _a : Byte) (len : BitVec 5) (s : State) : Host.Outcome State Fault Refusal :=
  if f ≠ 0x45#8 ∨ len.toNat ≤ sensorFaultIndex then .next (s.respond 0x7#4 (.done false (.sens (sensResWord .notApplicable 0#8))))
  else withMemRead sensorFaultIndex 1 s fun d => .next (s.respond 0x7#4 (sensorByteResult (elemAt d 0)))

/-- Ack byte 0x10 classified (R202). -/
def execAckReply (s : State) : Host.Outcome State Fault Refusal := classifyAckOp 0x10#8 s
/-- Ack byte 0x20 classified (R202). -/
def execAckCommand (s : State) : Host.Outcome State Fault Refusal := classifyAckOp 0x20#8 s
/-- Ack byte 0x01 classified (R202). -/
def execNack01 (s : State) : Host.Outcome State Fault Refusal := classifyAckOp 0x01#8 s
/-- Ack byte 0x02 classified (R202). -/
def execNack02 (s : State) : Host.Outcome State Fault Refusal := classifyAckOp 0x02#8 s
/-- Ack byte 0x03 classified (R202). -/
def execNack03 (s : State) : Host.Outcome State Fault Refusal := classifyAckOp 0x03#8 s
/-- Ack byte 0x04 classified (R202). -/
def execNack04 (s : State) : Host.Outcome State Fault Refusal := classifyAckOp 0x04#8 s
/-- Ack byte 0x05 classified (R202). -/
def execNack05 (s : State) : Host.Outcome State Fault Refusal := classifyAckOp 0x05#8 s
/-- Ack byte 0x06 classified (R202). -/
def execNack06 (s : State) : Host.Outcome State Fault Refusal := classifyAckOp 0x06#8 s
/-- Ack byte 0x07 classified (R202). -/
def execNack07 (s : State) : Host.Outcome State Fault Refusal := classifyAckOp 0x07#8 s
/-- Ack byte 0x08 classified (R202). -/
def execNack08 (s : State) : Host.Outcome State Fault Refusal := classifyAckOp 0x08#8 s
/-- Ack byte 0x09 classified (R202). -/
def execNack09 (s : State) : Host.Outcome State Fault Refusal := classifyAckOp 0x09#8 s
/-- Ack byte 0x0A classified (R202). -/
def execNack0A (s : State) : Host.Outcome State Fault Refusal := classifyAckOp 0x0A#8 s

end Sys2Proof.Machine
end

