-- ==== Sys2Proof/Machine/Crc.lean ====
section
/-! DEFINITION. The CRC-16/Modbus generator and the operation CRC (spec/40_crc.md). -/

namespace Sys2Proof.Machine

/-- One of the 8 rounds: shift right, and XOR with the polynomial if the low bit was set (R100). -/
def crcRound (acc : Half) : Half := if acc.getLsbD 0 then (acc >>> 1) ^^^ crcPolyRefl else acc >>> 1

/-- `n` rounds. -/
def crcRounds : Nat → Half → Half
  | 0, acc => acc
  | n + 1, acc => crcRounds n (crcRound acc)

/-- One input byte: XOR into the low byte, then 8 rounds (R100). -/
def crcByte (acc : Half) (b : Byte) : Half := crcRounds 8 (acc ^^^ b.setWidth 16)

/-- The accumulator after the bytes `s`, from `acc` (spec/10_state.md R37). -/
def crcFrom (acc : Half) : List Byte → Half
  | [] => acc
  | b :: s => crcFrom (crcByte acc b) s

/-- `Crc16(s)` (R100). -/
def crc16 (s : List Byte) : Half := crcFrom crcInit s

/-- A sequence followed by its CRC in wire order, low byte first (R101; spec/20_memory.md R62). -/
def withCrc (s : List Byte) : List Byte := s ++ [lo (crc16 s), hi (crc16 s)]

/-- CRC: A and F are ignored (R102). -/
def execCrc (_f _a : Byte) (len : BitVec 5) (s : State) : Host.Outcome State Fault Refusal :=
  withMemRead 0 len.toNat s fun d => .next (s.respond 0x1#4 (.done false (.crc (crc16 d))))

end Sys2Proof.Machine
end

