-- ==== Sys2Proof/Machine/Decoder.lean ====
section
/-! DEFINITION. The frame decoder with field validation: the operation DECODE (spec/44_decoder.md). -/

namespace Sys2Proof.Machine

/-- Step 1: a length outside 5..16 (R171). -/
def decodeLengthCheck (n : Nat) : Option Failure :=
  if n < frameMin then some ⟨.malformedFrame, lenByte n, lenByte frameMin, 0#8, 0#8⟩
  else if n > frameMax then some ⟨.malformedFrame, lenByte n, lenByte frameMax, 0#8, 0#8⟩
  else none

/-- `ReplyAddrOk(a, e)`: reply address a against expected address e (R174). -/
def replyAddrOk (a e : Byte) : Bool := a != addrBcast && addrValid a && (e == addrBcast || a == e)

/-- Step 6: a fixed reply length that n does not meet (R176). -/
def replyLengthCheck (d : Descriptor) (n : Nat) : Option Failure :=
  match d.rpl with
  | .fixed k => if n = k.toNat then none else some ⟨.malformedFrame, lenByte n, k.setWidth 8, 0#8, 0#8⟩
  | .varying => none
  | .absent => none

/-- The message of a frame of n bytes (R172, R177). -/
def messageOf (raw : List Byte) (n : Nat) : Message where
  addr := elemAt raw 0
  func := baseCode (elemAt raw 1)
  err := errBit (elemAt raw 1)
  ack := elemAt raw 2
  data := slice raw hdrLen (n - crcLen)
  crcLo := elemAt raw (n - 2)
  crcHi := elemAt raw (n - 1)

/-- Steps 2 to 7 on a raw frame of n bytes, 5 ≤ n ≤ 16, with expected address e (R170, R180). -/
def decodeResult (raw : List Byte) (n : Nat) (e : Byte) : Result :=
  let c := crc16 (slice raw 0 (n - crcLen))
  let clo := elemAt raw (n - 2)
  let chi := elemAt raw (n - 1)
  let a := elemAt raw 0
  let f := elemAt raw 1
  if lo c ≠ clo ∨ hi c ≠ chi then .failed ⟨.crcMismatch, clo, chi, lo c, hi c⟩
  else if !replyAddrOk a e then .failed ⟨.addressMismatch, a, e, 0#8, 0#8⟩
  else
    match lookup f with
    | none => .failed ⟨.unknownFunctionCode, f, 0#8, 0#8, 0#8⟩
    | some r =>
      match replyLengthCheck r.desc n with
      | some x => .failed x
      | none => .done false (.msg (messageOf raw n))

/-- DECODE: F, the expected function, is read by no check (R170, R179). -/
def execDecode (_f a : Byte) (len : BitVec 5) (s : State) : Host.Outcome State Fault Refusal :=
  match decodeLengthCheck len.toNat with
  | some x => .next (s.respond 0x5#4 (.failed x))
  | none => withMemRead 0 len.toNat s fun raw => .next (s.respond 0x5#4 (decodeResult raw len.toNat a))

end Sys2Proof.Machine
end

