-- ==== Sys2Proof/Machine/Encoder.lean ====
section
/-! DEFINITION. The frame encoder: the operation ENCODE and its eight pseudo-operations (spec/43_encoder.md; spec/30_encoding.md R84). -/

namespace Sys2Proof.Machine

/-- The length checks of ENCODE against a descriptor: the fixed command length, then the 11-byte bound (R150, R153, R154). -/
def encodeLengthCheck (d : Descriptor) (len : Nat) : Option Failure :=
  let bound := if len > dataMax then some ⟨.dataLengthOutOfRange, lenByte len, lenByte frameMax, 0#8, 0#8⟩ else none
  match d.cmd with
  | .fixed n => if hdrLen + len + crcLen = n.toNat then bound else some ⟨.dataLengthOutOfRange, lenByte len, n.setWidth 8, 0#8, 0#8⟩
  | .varying => bound
  | .absent => bound

/-- The checks of ENCODE in order; the first that fails (R150, R151, R152, R225). -/
def encodeCheck (f a : Byte) (len : Nat) : Option Failure :=
  if !addrValid a then some ⟨.invalidAddress, a, 0#8, 0#8, 0#8⟩
  else if errBit f then some ⟨.invalidFunctionCode, f, 0#8, 0#8, 0#8⟩
  else
    match lookup f with
    | none => some ⟨.unknownFunctionCode, f, 0#8, 0#8, 0#8⟩
    | some r => encodeLengthCheck r.desc len

/-- The command frame: header, data, CRC low byte first (R155, R156). -/
def commandFrame (a f : Byte) (d : List Byte) : List Byte := withCrc ([a, f, commandAck] ++ d)

/-- ENCODE: the data bytes are read only after every check has passed (R150). -/
def encodeOp (f a : Byte) (len : BitVec 5) (s : State) : Host.Outcome State Fault Refusal :=
  match encodeCheck f a len.toNat with
  | some x => .next (s.respond 0x4#4 (.failed x))
  | none => withMemRead 0 len.toNat s fun d => .next (s.respond 0x4#4 (.done false (.enc (commandFrame a f d))))

/-- ENCODE (R150). -/
def execEncode (f a : Byte) (len : BitVec 5) (s : State) : Host.Outcome State Fault Refusal := encodeOp f a len s

/-- `go a` (R84). -/
def execGo (a : Byte) (s : State) : Host.Outcome State Fault Refusal := encodeOp 0x41#8 a 0#5 s
/-- `stop a` (R84). -/
def execStop (a : Byte) (s : State) : Host.Outcome State Fault Refusal := encodeOp 0x42#8 a 0#5 s
/-- `status a` (R84). -/
def execStatus (a : Byte) (s : State) : Host.Outcome State Fault Refusal := encodeOp 0x43#8 a 0#5 s
/-- `setdemand a, d0, d1, d2` (R84). -/
def execSetdemand (a : Byte) (s : State) : Host.Outcome State Fault Refusal := encodeOp 0x44#8 a 3#5 s
/-- `readsensor a, s0, s1` (R84). -/
def execReadsensor (a : Byte) (s : State) : Host.Outcome State Fault Refusal := encodeOp 0x45#8 a 2#5 s
/-- `storecfg a` (R84). -/
def execStorecfg (a : Byte) (s : State) : Host.Outcome State Fault Refusal := encodeOp 0x65#8 a 0#5 s
/-- `readid a, [d...]` (R84). -/
def execReadid (a : Byte) (len : BitVec 5) (s : State) : Host.Outcome State Fault Refusal := encodeOp 0x46#8 a len s
/-- `config a, [d...]` (R84). -/
def execConfig (a : Byte) (len : BitVec 5) (s : State) : Host.Outcome State Fault Refusal := encodeOp 0x64#8 a len s

end Sys2Proof.Machine
end

