-- ==== Sys2Proof/Machine/Illegal.lean ====
section
/-! DEFINITION. Reserved request encodings: ILLEGAL_OP (spec/60_exceptions.md R221; spec/30_encoding.md R74). -/

namespace Sys2Proof.Machine

/-- The failure of a reserved header: E0 = OP, E1 = REQ_HDR[15:8] (RSV1 and LEN), E2 = REQ_HDR[7:0] (RSV0 and OP), E3 = 0 (R221). -/
def illegalOpFailure (rsv1 : BitVec 3) (len : BitVec 5) (rsv0 op : BitVec 4) : Failure :=
  ⟨.illegalOp, op.setWidth 8, rsv1 ++ len, rsv0 ++ op, 0#8⟩

/-- ILLEGAL_OP: no computation, no buffer read; RES_OP is the request's OP (R221, R222). -/
def execIllegalOp (_f _a : Byte) (rsv1 : BitVec 3) (len : BitVec 5) (rsv0 op : BitVec 4) (s : State) : Host.Outcome State Fault Refusal :=
  .next (s.respond op (.failed (illegalOpFailure rsv1 len rsv0 op)))

end Sys2Proof.Machine
end

