-- ==== Sys2Proof/Machine/Dispatch.lean ====
section
/-! DEFINITION. One arm per instruction. -/

namespace Sys2Proof.Machine

def exec (i : Instr) (s : State) : Host.Outcome State Fault Refusal :=
  match i with
  | .crc f a len => Sys2Proof.Machine.execCrc f a len s
  | .validate f a len => Sys2Proof.Machine.execValidate f a len s
  | .lookup f a len => Sys2Proof.Machine.execLookup f a len s
  | .encode f a len => Sys2Proof.Machine.execEncode f a len s
  | .decode f a len => Sys2Proof.Machine.execDecode f a len s
  | .classifyAck f a len => Sys2Proof.Machine.execClassifyAck f a len s
  | .classifySensor f a len => Sys2Proof.Machine.execClassifySensor f a len s
  | .illegalOp f a rsv1 len rsv0 op => Sys2Proof.Machine.execIllegalOp f a rsv1 len rsv0 op s
  | .go a => Sys2Proof.Machine.execGo a s
  | .stop a => Sys2Proof.Machine.execStop a s
  | .status a => Sys2Proof.Machine.execStatus a s
  | .setdemand a => Sys2Proof.Machine.execSetdemand a s
  | .readsensor a => Sys2Proof.Machine.execReadsensor a s
  | .storecfg a => Sys2Proof.Machine.execStorecfg a s
  | .readid a len => Sys2Proof.Machine.execReadid a len s
  | .config a len => Sys2Proof.Machine.execConfig a len s
  | .fnGo => Sys2Proof.Machine.execFnGo s
  | .fnStop => Sys2Proof.Machine.execFnStop s
  | .fnStatus => Sys2Proof.Machine.execFnStatus s
  | .fnSetDemand => Sys2Proof.Machine.execFnSetDemand s
  | .fnReadSensor => Sys2Proof.Machine.execFnReadSensor s
  | .fnReadIdentification => Sys2Proof.Machine.execFnReadIdentification s
  | .fnConfigurationReadWrite => Sys2Proof.Machine.execFnConfigurationReadWrite s
  | .fnStoreConfiguration => Sys2Proof.Machine.execFnStoreConfiguration s
  | .fnGoError => Sys2Proof.Machine.execFnGoError s
  | .fnStopError => Sys2Proof.Machine.execFnStopError s
  | .fnStatusError => Sys2Proof.Machine.execFnStatusError s
  | .fnSetDemandError => Sys2Proof.Machine.execFnSetDemandError s
  | .fnReadSensorError => Sys2Proof.Machine.execFnReadSensorError s
  | .fnReadIdentificationError => Sys2Proof.Machine.execFnReadIdentificationError s
  | .fnConfigurationReadWriteError => Sys2Proof.Machine.execFnConfigurationReadWriteError s
  | .fnStoreConfigurationError => Sys2Proof.Machine.execFnStoreConfigurationError s
  | .ackReply => Sys2Proof.Machine.execAckReply s
  | .ackCommand => Sys2Proof.Machine.execAckCommand s
  | .nack01 => Sys2Proof.Machine.execNack01 s
  | .nack02 => Sys2Proof.Machine.execNack02 s
  | .nack03 => Sys2Proof.Machine.execNack03 s
  | .nack04 => Sys2Proof.Machine.execNack04 s
  | .nack05 => Sys2Proof.Machine.execNack05 s
  | .nack06 => Sys2Proof.Machine.execNack06 s
  | .nack07 => Sys2Proof.Machine.execNack07 s
  | .nack08 => Sys2Proof.Machine.execNack08 s
  | .nack09 => Sys2Proof.Machine.execNack09 s
  | .nack0A => Sys2Proof.Machine.execNack0A s

end Sys2Proof.Machine
end

