-- ==== Sys2Proof/Machine/Window.lean ====
section
/-! DEFINITION. The host register window of 0x80 bytes: its map, its reads, and its writes other than REQ_HDR's
(spec/10_state.md R23, R42; spec/20_memory.md R51, R54, R55, R57). -/

namespace Sys2Proof.Machine

/-- The size of the window (R23). -/
def windowSize : Nat := 0x80

/-- The window offset of a host address, if it lies in the window (spec/20_memory.md R57; log entry 10). -/
def windowOffset (addr : Nat) : Option Nat :=
  if Config.windowBase ≤ addr ∧ addr < Config.windowBase + windowSize then some (addr - Config.windowBase) else none

/-- The places of the window that are 32 bits wide (R23). -/
inductive Reg32 where
  | reqHdr | ctrlStat | rspHdr | rspErr | olen | crcRes | desc | msgHdr | msgCrc | ackRes | sensRes | reserved
  | tIdleHalfchars | tMinReplyUs | tMaxReplyUs | tMaxStoreUs
  deriving DecidableEq, Repr

/-- The places of the window that are one byte wide (R23). -/
inductive ByteReg where
  /-- REQ_BUF[i]. -/
  | reqBuf (i : Nat)
  /-- OBUF[i]. -/
  | obuf (i : Nat)
  /-- M_DATA[i]. -/
  | mData (i : Nat)
  /-- The reserved bytes 0x2F and 0x5F. -/
  | reserved
  deriving DecidableEq, Repr

/-- The 32-bit places by offset (R23). -/
def reg32Map : List (Nat × Reg32) :=
  [(0x00, .reqHdr), (0x04, .ctrlStat), (0x08, .rspHdr), (0x0C, .rspErr), (0x40, .olen), (0x44, .crcRes), (0x48, .desc), (0x4C, .msgHdr)] ++
  [(0x50, .msgCrc), (0x60, .ackRes), (0x64, .sensRes), (0x68, .reserved), (0x6C, .reserved), (0x70, .tIdleHalfchars)] ++
  [(0x74, .tMinReplyUs), (0x78, .tMaxReplyUs), (0x7C, .tMaxStoreUs)]

/-- The row of an offset. -/
def reg32Row : List (Nat × Reg32) → Nat → Option Reg32
  | [], _ => none
  | (o, r) :: rows, off => if off = o then some r else reg32Row rows off

/-- The 32-bit place at an offset (R23). -/
def reg32At (off : Nat) : Option Reg32 := reg32Row reg32Map off

/-- The one-byte place at an offset (R23). -/
def byteRegAt (off : Nat) : Option ByteReg :=
  if 0x10 ≤ off ∧ off ≤ 0x2E then some (.reqBuf (off - 0x10))
  else if off = 0x2F ∨ off = 0x5F then some .reserved
  else if 0x30 ≤ off ∧ off ≤ 0x3F then some (.obuf (off - 0x30))
  else if 0x54 ≤ off ∧ off ≤ 0x5E then some (.mData (off - 0x54))
  else none

/-- Is it a response register, written only by operations (R21)? -/
def Reg32.isResponse : Reg32 → Bool
  | .rspHdr | .rspErr | .olen | .crcRes | .desc | .msgHdr | .msgCrc | .ackRes | .sensRes => true
  | .reqHdr | .ctrlStat | .reserved | .tIdleHalfchars | .tMinReplyUs | .tMaxReplyUs | .tMaxStoreUs => false

/-- Is it a response register (R21)? -/
def ByteReg.isResponse : ByteReg → Bool
  | .obuf _ | .mData _ => true
  | .reqBuf _ | .reserved => false

/-- Is it a request register (R21)? -/
def ByteReg.isRequest : ByteReg → Bool
  | .reqBuf _ => true
  | .obuf _ | .mData _ | .reserved => false

/-- The value of a 32-bit place; reserved ones read 0 and constants their constant (R24 to R35, R42). REQ_HDR reads as it was last written, RSV0
and RSV1 among its bits: R24 for R42's "a reserved bit returns 0", the model's choice between the two (log entry 20). -/
def State.readReg32 (s : State) : Reg32 → Option Word
  | .reqHdr => s.reqHdr
  | .ctrlStat => some (ctrlStatWord s.busy s.rspValid)
  | .rspHdr => s.rspHdr
  | .rspErr => s.rspErr
  | .olen => s.olen
  | .crcRes => s.crcRes
  | .desc => s.desc
  | .msgHdr => s.msgHdr
  | .msgCrc => s.msgCrc
  | .ackRes => s.ackRes
  | .sensRes => s.sensRes
  | .reserved => some 0#32
  | .tIdleHalfchars => some tIdleHalfchars
  | .tMinReplyUs => some tMinReplyUs
  | .tMaxReplyUs => some tMaxReplyUs
  | .tMaxStoreUs => some tMaxStoreUs

/-- The value of a one-byte place; reserved ones read 0 (R25, R29, R32, R42). -/
def State.readByteReg (s : State) : ByteReg → Option Byte
  | .reqBuf i => Memory.read s.reqBuf i
  | .obuf i => Memory.read s.obuf i
  | .mData i => Memory.read s.mData i
  | .reserved => some 0#8

/-- The host obtains a value. A place that holds none is a fault of the host program (R38); a response register is read only while
RSP_VALID = 1 (spec/70_reset_and_hazards.md R255). Nothing but the host's own record changes (R55). -/
def State.observe (width : Width) (off : Nat) (isResponse : Bool) (v : Except Nat Word) (s : State) : Host.Outcome State Fault Refusal :=
  match v with
  | .error j => .fault (.valuelessRead j)
  | .ok x => if isResponse && !s.rspValid then .refused (.responseNotValid off) else .next { s with reads := ⟨width, off, x⟩ :: s.reads }

/-- The value of a place, or the offset of the place that holds none. -/
def valueAt (off : Nat) (v : Option Word) : Except Nat Word :=
  match v with
  | some x => .ok x
  | none => .error off

/-- The four one-byte places of a word of a byte array (R54). -/
def wordRegsAt (off : Nat) : Option (ByteReg × ByteReg × ByteReg × ByteReg) :=
  match byteRegAt off, byteRegAt (off + 1), byteRegAt (off + 2), byteRegAt (off + 3) with
  | some r0, some r1, some r2, some r3 => some (r0, r1, r2, r3)
  | _, _, _, _ => none

/-- Four bytes as a word, little-endian (R51), or the offset of the first that holds no value. -/
def wordValue (off : Nat) (b0 b1 b2 b3 : Option Byte) : Except Nat Word :=
  match b0, b1, b2, b3 with
  | some x0, some x1, some x2, some x3 => .ok (wordOfBytes x0 x1 x2 x3)
  | none, _, _, _ => .error off
  | _, none, _, _ => .error (off + 1)
  | _, _, none, _ => .error (off + 2)
  | _, _, _, none => .error (off + 3)

/-- A host load (R42, R54). That a load R54 does not allow is refused as such, whatever the register holds, is the model's choice, log entry 19. -/
def hostRead (width : Width) (off : Nat) (s : State) : Host.Outcome State Fault Refusal :=
  match width with
  | .b8 =>
    match byteRegAt off with
    | some r => s.observe .b8 off r.isResponse (valueAt off ((s.readByteReg r).map (·.setWidth 32)))
    | none => .refused (.illegalAccess off)
  | .b32 =>
    if off % 4 = 0 then
      match reg32At off with
      | some r => s.observe .b32 off r.isResponse (valueAt off (s.readReg32 r))
      | none =>
        match wordRegsAt off with
        | some (r0, r1, r2, r3) =>
          s.observe .b32 off r0.isResponse (wordValue off (s.readByteReg r0) (s.readByteReg r1) (s.readByteReg r2) (s.readByteReg r3))
        | none => .refused (.illegalAccess off)
    else .refused (.illegalAccess off)
  | .b16 => .refused (.illegalAccess off)
  | .b64 => .refused (.illegalAccess off)

/-- A store to a one-byte place: only REQ_BUF takes it (R25, R42). -/
def State.storeByte (r : ByteReg) (b : Byte) (s : State) : State :=
  match r with
  | .reqBuf i => { s with reqBuf := Memory.write s.reqBuf i b }
  | .obuf _ => s
  | .mData _ => s
  | .reserved => s

/-- A store to a byte array, a byte or four; refused for REQ_BUF while BUSY = 1 (R54; spec/70_reset_and_hazards.md R255). -/
def storeBytes (rs : List (ByteReg × Byte)) (s : State) : Host.Outcome State Fault Refusal :=
  if s.busy && rs.any (·.1.isRequest) then .refused .writeWhileBusy
  else .next (rs.foldl (fun t rb => t.storeByte rb.1 rb.2) s)

end Sys2Proof.Machine
end

