-- ==== Sys2Proof/Machine/HostPort.lean ====
section
/-! DEFINITION. The host's actions on the machine: loads, stores, the store to REQ_HDR that starts an operation, and reset
(spec/10_state.md R24, R39; spec/20_memory.md R54 to R58; spec/70_reset_and_hazards.md R250 to R255). -/

namespace Sys2Proof.Machine

/-- The write of REQ_HDR with word `w`, which starts instruction `i`: refused while BUSY = 1 (R255); otherwise the word is stored and the
operation runs to its response in this step (R7, R56). -/
def startRequest (w : Word) (i : Instr) (s : State) : Host.Outcome State Fault Refusal :=
  if s.busy then .refused .writeWhileBusy else exec i (s.acceptRequest w)

/-- A host store (R42, R54): REQ_HDR starts an operation, REQ_BUF stores, everything else has no effect. That a store R54 does not allow is
refused as such before BUSY is looked at is the model's choice, log entry 19. -/
def hostWrite (width : Width) (off : Nat) (data : BitVec 64) (s : State) : Host.Outcome State Fault Refusal :=
  match width with
  | .b8 =>
    match byteRegAt off with
    | some r => storeBytes [(r, data.setWidth 8)] s
    | none => .refused (.illegalAccess off)
  | .b32 =>
    if off % 4 = 0 then
      match reg32At off with
      | some .reqHdr => startRequest (data.setWidth 32) (decodeHeader (data.setWidth 32)) s
      | some _ => .next s
      | none =>
        match wordRegsAt off with
        | some (r0, r1, r2, r3) =>
          storeBytes [(r0, data.extractLsb' 0 8), (r1, data.extractLsb' 8 8), (r2, data.extractLsb' 16 8), (r3, data.extractLsb' 24 8)] s
        | none => .refused (.illegalAccess off)
    else .refused (.illegalAccess off)
  | .b16 => .refused (.illegalAccess off)
  | .b64 => .refused (.illegalAccess off)

/-- The instruction of a wire function byte; a byte the map does not hold is looked up all the same, and fails (R124; log entry 2). -/
def functionByteInstr (b : Byte) : Instr :=
  match decodeFunctionByte b with
  | .ok i => i
  | .error _ => .lookup b 0#8 0#5

/-- The instruction of a wire ack byte; a byte the map does not hold is classified all the same, and fails (R202; log entry 2). -/
def ackByteInstr (b : Byte) : Instr :=
  match decodeAckByte b with
  | .ok i => i
  | .error _ => .classifyAck 0#8 b 0#5

/-- Reset: every register to its reset value, an operation in progress abandoned (R250, R251). What the host will do and has read is the
host's, not the machine's, and stays (log entry 9). -/
def State.resetKeepingHost (s : State) : State := 
  { State.reset with host := s.host, reads := s.reads, earlierReads := s.earlierReads }

/-- One action of the host, already taken off the queue. A second host is refused (spec/20_memory.md R58), before anything else is looked at
(the model's choice, log entry 19). -/
def hostAct (a : HostAction) (s : State) : Host.Outcome State Fault Refusal :=
  match a with
  | .read who width off => if who = 0 then hostRead width off s else .refused (.secondHost who)
  | .write who width off data => if who = 0 then hostWrite width off data s else .refused (.secondHost who)
  | .functionByte b => startRequest (lookupHeader b) (functionByteInstr b) s
  | .ackByte b => startRequest (ackHeader b) (ackByteInstr b) s
  | .reset => .next s.resetKeepingHost

/-- The next step: the host's oldest action; with none, the block stays as it is (R227). -/
def stepHost (s : State) : Host.Outcome State Fault Refusal :=
  match s.host with
  | [] => .next s
  | a :: rest => hostAct a { s with host := rest }

/-- The host action whose step runs a table word: a wire byte, or a 32-bit store to REQ_HDR (log entry 8). -/
def tableWordAction (nbits w : Nat) : HostAction :=
  if nbits < 32 then
    match decodeFunctionByte (BitVec.ofNat 8 w) with
    | .ok _ => .functionByte (BitVec.ofNat 8 w)
    | .error _ => .ackByte (BitVec.ofNat 8 w)
  else .write 0 .b32 0x00 (BitVec.ofNat 64 (w % 2 ^ 32))

/-- How many buffer bytes a table word's request has: LEN of a header, none for a wire byte (spec/30_encoding.md R70). -/
def tableWordBytes (nbits w : Nat) : Nat := if nbits < 32 then 0 else (lenField (BitVec.ofNat 32 w)).toNat

end Sys2Proof.Machine
end

