-- ==== Sys2Proof/Machine/Step.lean ====
section
/-! DEFINITION. One step of the machine, and how the host's question places an instruction in front of it. -/

namespace Sys2Proof.Machine

/-- One step: the host's oldest pending action (spec/10_state.md R20, R22; spec/20_memory.md R58). -/
def step (s : State) : Host.Outcome State Fault Refusal := stepHost s

/-- The state whose next step runs exactly the instruction with these bits: its header store (or wire byte) is the host's next action,
its LEN buffer bytes, which the table gives no bits, are zero (spec/30_encoding.md R70), and BUSY is 0 so that the store is taken. -/
def State.withFetchWord (s : State) (nbits w : Nat) : State :=
  { s with
    host := tableWordAction nbits w :: s.host
    reqBuf := Memory.writeBytes s.reqBuf 0 (List.replicate (tableWordBytes nbits w) 0#8)
    busy := false }

end Sys2Proof.Machine
end

