-- ==== Sys2Proof/Machine/Asm.lean ====
section
/-! DEFINITION. The assembler of requests (spec/30_encoding.md R83, R84): one line of text, its request, and the host accesses that make
it (spec/70_reset_and_hazards.md R252). Log entry 13. -/

namespace Sys2Proof.Machine

/-- A line, parsed: the eight forms of R83 and the eight pseudo-instructions of R84. -/
inductive AsmLine where
  | crc (s : List Byte)
  | validate (a : Byte)
  | lookup (f : Byte)
  | encode (a f : Byte) (d : List Byte)
  | decode (ea ef : Byte) (r : List Byte)
  | cack (k : Byte)
  | csens (f : Byte) (p : List Byte)
  | word (w : Word)
  | go (a : Byte)
  | stop (a : Byte)
  | status (a : Byte)
  | setdemand (a d0 d1 d2 : Byte)
  | readsensor (a s0 s1 : Byte)
  | readid (a : Byte) (d : List Byte)
  | config (a : Byte) (d : List Byte)
  | storecfg (a : Byte)
  deriving DecidableEq, Repr

/-- A pseudo-instruction expands to an ENCODE (R84); every other line stands for itself. -/
def AsmLine.expand : AsmLine → AsmLine
  | .go a => .encode a 0x41#8 []
  | .stop a => .encode a 0x42#8 []
  | .status a => .encode a 0x43#8 []
  | .setdemand a d0 d1 d2 => .encode a 0x44#8 [d0, d1, d2]
  | .readsensor a s0 s1 => .encode a 0x45#8 [s0, s1]
  | .readid a d => .encode a 0x46#8 d
  | .config a d => .encode a 0x64#8 d
  | .storecfg a => .encode a 0x65#8 []
  | .crc s => .crc s
  | .validate a => .validate a
  | .lookup f => .lookup f
  | .encode a f d => .encode a f d
  | .decode ea ef r => .decode ea ef r
  | .cack k => .cack k
  | .csens f p => .csens f p
  | .word w => .word w

/-- A request: the header word and the buffer bytes written before it (R83). -/
structure Request where
  /-- The word for REQ_HDR. -/
  hdr : Word
  /-- The bytes for REQ_BUF[0..]. -/
  bytes : List Byte
  deriving DecidableEq, Repr

/-- The request of a header's fields and a list; a list longer than 31 bytes does not assemble (R83). -/
def requestOf (f a : Byte) (op : BitVec 4) (d : List Byte) : Option Request :=
  if d.length ≤ bufMax then some ⟨header f a (BitVec.ofNat 5 d.length) op, d⟩ else none

/-- The request of a line that is no pseudo-instruction; unused fields assemble as 0 (R83). -/
def AsmLine.coreRequest : AsmLine → Option Request
  | .crc s => requestOf 0#8 0#8 0x1#4 s
  | .validate a => requestOf 0#8 a 0x2#4 []
  | .lookup f => requestOf f 0#8 0x3#4 []
  | .encode a f d => requestOf f a 0x4#4 d
  | .decode ea ef r => requestOf ef ea 0x5#4 r
  | .cack k => requestOf 0#8 k 0x6#4 []
  | .csens f p => requestOf f 0#8 0x7#4 p
  | .word w => some ⟨w, []⟩
  | .go _ | .stop _ | .status _ | .setdemand _ _ _ _ | .readsensor _ _ _ | .readid _ _ | .config _ _ | .storecfg _ => none

/-- The request of a line (R83, R84). -/
def AsmLine.assemble (l : AsmLine) : Option Request := l.expand.coreRequest

/-- The stores of a request's buffer bytes, from index i on: 8-bit stores (R252). -/
def bufferWrites : Nat → List Byte → List HostAction
  | _, [] => []
  | i, b :: bs => .write 0 .b8 (reqBufBase + i) (b.setWidth 64) :: bufferWrites (i + 1) bs

/-- What the host does for a request: the buffer bytes, then the header (R83, R252). -/
def Request.actions (r : Request) : List HostAction := bufferWrites 0 r.bytes ++ [.write 0 .b32 0x00 (r.hdr.setWidth 64)]

/-- The host is given more to do. -/
def State.load (acts : List HostAction) (s : State) : State := { s with host := s.host ++ acts }

/-! ### The text of a line -/

/-- A token of a line. -/
inductive Token where
  | name (cs : List Char)
  | comma
  | lbracket
  | rbracket
  deriving DecidableEq, Repr

/-- A letter, a digit, or the dot of `.word`. -/
def isNameChar (c : Char) : Bool := c.isAlpha || c.isDigit || c == '.'

/-- Put a finished name in front of the tokens after it. -/
def flushName (acc : List Char) (ts : List Token) : List Token := if acc.isEmpty then ts else .name acc.reverse :: ts

/-- Split a line into tokens, `acc` being the name under way; a comment ends it; any other character is an error. -/
def tokens : List Char → List Char → Option (List Token)
  | acc, [] => some (flushName acc [])
  | acc, c :: cs =>
    if c == ';' then some (flushName acc [])
    else if isNameChar c then tokens (c :: acc) cs
    else if c == ' ' || c == '\t' then (tokens [] cs).map (flushName acc)
    else if c == ',' then (tokens [] cs).map fun ts => flushName acc (.comma :: ts)
    else if c == '[' then (tokens [] cs).map fun ts => flushName acc (.lbracket :: ts)
    else if c == ']' then (tokens [] cs).map fun ts => flushName acc (.rbracket :: ts)
    else none

/-- The value of a digit in a base of at most 16. -/
def digitValue (base : Nat) (c : Char) : Option Nat :=
  let v :=
    if c.isDigit then some (c.toNat - '0'.toNat)
    else if 'a' ≤ c ∧ c ≤ 'f' then some (c.toNat - 'a'.toNat + 10)
    else if 'A' ≤ c ∧ c ≤ 'F' then some (c.toNat - 'A'.toNat + 10)
    else none
  match v with
  | some n => if n < base then some n else none
  | none => none

/-- The value of digits, most significant first, after the value `acc`. -/
def digits (base : Nat) : Nat → List Char → Option Nat
  | acc, [] => some acc
  | acc, c :: cs =>
    match digitValue base c with
    | some v => digits base (acc * base + v) cs
    | none => none

/-- A number: hexadecimal `0x..` or decimal (R83). -/
def number : List Char → Option Nat
  | '0' :: 'x' :: c :: cs => digits 16 0 (c :: cs)
  | c :: cs => digits 10 0 (c :: cs)
  | [] => none

/-- A number of at most `n` bits. -/
def numberBits (n : Nat) : List Char → Option (BitVec n)
  | cs =>
    match number cs with
    | some v => if v < 2 ^ n then some (BitVec.ofNat n v) else none
    | none => none

/-- An operand: a byte, or a list in brackets. -/
inductive Operand where
  | byte (b : Byte)
  | bytes (bs : List Byte)
  deriving DecidableEq, Repr

/-- The rest of a bracketed list after an element, and the tokens after it. -/
def listRest : List Token → Option (List Byte × List Token)
  | .rbracket :: ts => some ([], ts)
  | .comma :: .name n :: ts =>
    match numberBits 8 n, listRest ts with
    | some b, some (bs, rest) => some (b :: bs, rest)
    | _, _ => none
  | _ => none

/-- One operand, and the tokens after it. -/
def operand : List Token → Option (Operand × List Token)
  | .name n :: ts => (numberBits 8 n).map fun b => (.byte b, ts)
  | .lbracket :: .rbracket :: ts => some (.bytes [], ts)
  | .lbracket :: .name n :: ts =>
    match numberBits 8 n, listRest ts with
    | some b, some (bs, rest) => some (.bytes (b :: bs), rest)
    | _, _ => none
  | _ => none

/-- The operands after the first, each after a comma; `fuel` bounds their number. -/
def operandsRest : Nat → List Token → Option (List Operand)
  | _, [] => some []
  | 0, _ :: _ => none
  | fuel + 1, .comma :: ts =>
    match operand ts with
    | some (o, rest) => (operandsRest fuel rest).map (o :: ·)
    | none => none
  | _ + 1, _ :: _ => none

/-- The operands of a line, separated by commas. -/
def operands (ts : List Token) : Option (List Operand) :=
  match operand ts with
  | some (o, rest) => (operandsRest ts.length rest).map (o :: ·)
  | none => none

/-- A line with a mnemonic, in small letters, and its operands (R83, R84). -/
def lineOf (m : List Char) (os : List Operand) : Option AsmLine :=
  match os with
  | [.bytes s] => if m = ['c', 'r', 'c'] then some (.crc s) else none
  | [.byte a] =>
    if m = ['v', 'a', 'l', 'i', 'd', 'a', 't', 'e'] then some (.validate a)
    else if m = ['l', 'o', 'o', 'k', 'u', 'p'] then some (.lookup a)
    else if m = ['c', 'a', 'c', 'k'] then some (.cack a)
    else if m = ['g', 'o'] then some (.go a)
    else if m = ['s', 't', 'o', 'p'] then some (.stop a)
    else if m = ['s', 't', 'a', 't', 'u', 's'] then some (.status a)
    else if m = ['s', 't', 'o', 'r', 'e', 'c', 'f', 'g'] then some (.storecfg a)
    else none
  | [.byte a, .bytes d] =>
    if m = ['c', 's', 'e', 'n', 's'] then some (.csens a d)
    else if m = ['r', 'e', 'a', 'd', 'i', 'd'] then some (.readid a d)
    else if m = ['c', 'o', 'n', 'f', 'i', 'g'] then some (.config a d)
    else none
  | [.byte a, .byte f, .bytes d] =>
    if m = ['e', 'n', 'c', 'o', 'd', 'e'] then some (.encode a f d)
    else if m = ['d', 'e', 'c', 'o', 'd', 'e'] then some (.decode a f d)
    else none
  | [.byte a, .byte s0, .byte s1] => if m = ['r', 'e', 'a', 'd', 's', 'e', 'n', 's', 'o', 'r'] then some (.readsensor a s0 s1) else none
  | [.byte a, .byte d0, .byte d1, .byte d2] =>
    if m = ['s', 'e', 't', 'd', 'e', 'm', 'a', 'n', 'd'] then some (.setdemand a d0 d1 d2) else none
  | _ => none

/-- A line of text: none if it does not assemble, `some none` if it holds no request (a blank line or a comment). Mnemonics are
case-insensitive (R83). -/
def parseLine (cs : List Char) : Option (Option AsmLine) :=
  match tokens [] cs with
  | some [] => some none
  | some (.name n :: ts) =>
    let m := n.map Char.toLower
    if m = ['.', 'w', 'o', 'r', 'd'] then
      match ts with
      | [.name v] => (numberBits 32 v).map fun w => some (.word w)
      | _ => none
    else
      match operands ts with
      | some os => (lineOf m os).map some
      | none => none
  | some (_ :: _) => none
  | none => none

end Sys2Proof.Machine
end

