-- ==== Sys2Proof/Machine/Outcome.lean ====
section
/-! DEFINITION. The host's outcome names of a transaction, from the registers its requests left (spec/44_decoder.md R182;
spec/45_classifier.md R209; spec/70_reset_and_hazards.md R256). A register is taken as it is held: none where its operation failed. -/

namespace Sys2Proof.Machine

/-- ReplyDecoded: DECODE ended with STATUS = OK (R182). -/
def replyDecoded (rspHdr : Word) : Bool := statusField rspHdr == Status.ok.code

/-- FrameError: DECODE ended with any failure status (R182). -/
def frameError (rspHdr : Word) : Bool := !replyDecoded rspHdr

/-- CLASSIFY_ACK succeeded, with this class. -/
def ackClassIs (c : AckClass) (ackRes : Option Word) : Bool :=
  match ackRes with
  | some w => w.extractLsb' 0 2 == c.code
  | none => false

/-- CLASSIFY_SENSOR succeeded, with this class. -/
def sensorClassIs (c : SensorClass) (sensRes : Option Word) : Bool :=
  match sensRes with
  | some w => w.extractLsb' 0 2 == c.code
  | none => false

/-- Accepted: ACLASS = SUCCESS and, for a Read-Sensor reply, SCLASS = NO_FAULT or NOT_APPLICABLE (R209). INFERRED, log entry 17: that an ack
SUCCESS leaves the sensor step open. -/
def accepted (ackRes : Option Word) (readSensor : Bool) (sensRes : Option Word) : Bool :=
  ackClassIs .success ackRes && (!readSensor || sensorClassIs .noFault sensRes || sensorClassIs .notApplicable sensRes)

/-- NackClassified: ACLASS = NACK (R209). -/
def nackClassified (ackRes : Option Word) : Bool := ackClassIs .nack ackRes

/-- FaultClassified: SCLASS = FAULT, whatever the ack (R207, R209; INFERRED, log entry 17). -/
def faultClassified (sensRes : Option Word) : Bool := sensorClassIs .fault sensRes

/-- A classification failed: the protocol table gap that "must be surfaced rather than guessed at" (R209). -/
def tableGap (ackRes : Option Word) (readSensor : Bool) (sensRes : Option Word) : Bool := ackRes.isNone || (readSensor && sensRes.isNone)

end Sys2Proof.Machine
end

