-- ==== Sys2Proof/Machine/Run.lean ====
section
/-! DEFINITION. The end of a host program's run and its observation (spec/70_reset_and_hazards.md R260). Log entry 18. -/

namespace Sys2Proof.Machine

/-- Does the action write REQ_HDR, and so start an operation (R24; a wire byte by log entry 2)? -/
def HostAction.startsRequest : HostAction → Bool
  | .write who width off _ => who == 0 && width == .b32 && off == 0
  | .functionByte _ => true
  | .ackByte _ => true
  | .read _ _ _ => false
  | .reset => false

/-- The run has ended: the host has written its last REQ_HDR, and that operation has written its response (R260). -/
def State.runEnded (s : State) : Bool := s.rspValid && !s.host.any HostAction.startsRequest

/-- What is observed of a run: the response registers at its end, and the values the host read after each earlier operation (R260). -/
structure Observation where
  /-- RSP_HDR. -/
  rspHdr : Option Word
  /-- RSP_ERR. -/
  rspErr : Option Word
  /-- OBUF. -/
  obuf : Memory
  /-- OLEN. -/
  olen : Option Word
  /-- CRC_RES. -/
  crcRes : Option Word
  /-- DESC. -/
  desc : Option Word
  /-- MSG_HDR. -/
  msgHdr : Option Word
  /-- MSG_CRC. -/
  msgCrc : Option Word
  /-- M_DATA. -/
  mData : Memory
  /-- ACK_RES. -/
  ackRes : Option Word
  /-- SENS_RES. -/
  sensRes : Option Word
  /-- For each operation before the last, the newest first: the values read after it, newest first. -/
  reads : List (List ReadRecord)
  deriving DecidableEq, Repr

/-- The response registers, and what the host read after each earlier operation: what it read before the first is no part of it (R260). -/
def State.observed (s : State) : Observation where
  rspHdr := s.rspHdr
  rspErr := s.rspErr
  obuf := s.obuf
  olen := s.olen
  crcRes := s.crcRes
  desc := s.desc
  msgHdr := s.msgHdr
  msgCrc := s.msgCrc
  mData := s.mData
  ackRes := s.ackRes
  sensRes := s.sensRes
  reads := s.earlierReads.dropLast

/-- The observation of the run from `s`, at the first state in which it has ended, if that comes within `n` steps; a run that stops with a
fault or a refusal has none (R236, R260). -/
def runObservation : Nat → State → Option Observation
  | 0, s => if s.runEnded then some s.observed else none
  | n + 1, s =>
    if s.runEnded then some s.observed
    else
      match step s with
      | .next t => runObservation n t
      | .fault _ => none
      | .refused _ => none

end Sys2Proof.Machine
end

