-- ==== Sys2Proof/Safety.lean ====
section
/-! DEFINITION. The terms claims are stated in: which states are legal, what an operation leaves alone, and which output groups hold a value. -/

namespace Sys2Proof.Machine

/-- REQ.BUF[0 .. |d|] holds the bytes d. -/
def State.BufHolds (s : State) (d : List Byte) : Prop := ∀ i, i < d.length → Memory.read s.reqBuf i = d[i]?

/-- The request registers, the host's pending actions and its record are the same in both states; the request buffer by its bytes. -/
def State.SameRequest (s t : State) : Prop :=
  t.reqHdr = s.reqHdr ∧ (∀ i, Memory.read t.reqBuf i = Memory.read s.reqBuf i) ∧ t.host = s.host ∧
  t.reads = s.reads ∧ t.earlierReads = s.earlierReads

/-- The request of header `w` is under way, `rest` still to come: REQ_HDR written, BUSY set, RSP_VALID cleared (spec/10_state.md R24, R39), and
the host's reads until then put away (spec/70_reset_and_hazards.md R260). -/
def State.underWay (s : State) (rest : List HostAction) (w : Word) : State :=
  { s with
    host := rest, reqHdr := some w, busy := true, rspValid := false, reads := [], earlierReads := s.reads :: s.earlierReads }

/-- The response registers, with BUSY = 0 and RSP_VALID = 1 (spec/10_state.md R39). -/
def State.Responds (t : State) (hdr err : Word) : Prop :=
  t.busy = false ∧ t.rspValid = true ∧ t.rspHdr = some hdr ∧ t.rspErr = some err

/-- Group ENC holds no value. -/
def State.NoEnc (t : State) : Prop := t.olen = none ∧ ∀ i, Memory.read t.obuf i = none
/-- Group CRC holds no value. -/
def State.NoCrc (t : State) : Prop := t.crcRes = none
/-- Group DESC holds no value. -/
def State.NoDesc (t : State) : Prop := t.desc = none
/-- Group MSG holds no value. -/
def State.NoMsg (t : State) : Prop := t.msgHdr = none ∧ t.msgCrc = none ∧ ∀ i, Memory.read t.mData i = none
/-- Group ACK holds no value. -/
def State.NoAck (t : State) : Prop := t.ackRes = none
/-- Group SENS holds no value. -/
def State.NoSens (t : State) : Prop := t.sensRes = none

/-- No output group holds a value (spec/10_state.md R39). -/
def State.NoOutput (t : State) : Prop := t.NoEnc ∧ t.NoCrc ∧ t.NoDesc ∧ t.NoMsg ∧ t.NoAck ∧ t.NoSens

/-- The operation whose group holds a value is the one of this code: every other group holds none (spec/10_state.md R39; R71). -/
def State.OnlyGroupOf (t : State) (op : BitVec 4) : Prop :=
  (op ≠ 0x4#4 → t.NoEnc) ∧ (op ≠ 0x1#4 → t.NoCrc) ∧ (op ≠ 0x3#4 → t.NoDesc) ∧ (op ≠ 0x5#4 → t.NoMsg) ∧
  (op ≠ 0x6#4 → t.NoAck) ∧ (op ≠ 0x7#4 → t.NoSens)

/-- The OP of the request an instruction is (R71; a wire byte's is its unit's). -/
def opOf : Instr → BitVec 4
  | .crc _ _ _ => 0x1#4
  | .validate _ _ _ => 0x2#4
  | .lookup _ _ _ => 0x3#4
  | .encode _ _ _ => 0x4#4
  | .decode _ _ _ => 0x5#4
  | .classifyAck _ _ _ => 0x6#4
  | .classifySensor _ _ _ => 0x7#4
  | .illegalOp _ _ _ _ _ op => op
  | .go _ | .stop _ | .status _ | .setdemand _ | .readsensor _ | .storecfg _ | .readid _ _ | .config _ _ => 0x4#4
  | .fnGo | .fnStop | .fnStatus | .fnSetDemand | .fnReadSensor | .fnReadIdentification => 0x3#4
  | .fnConfigurationReadWrite | .fnStoreConfiguration => 0x3#4
  | .fnGoError | .fnStopError | .fnStatusError | .fnSetDemandError | .fnReadSensorError | .fnReadIdentificationError => 0x3#4
  | .fnConfigurationReadWriteError | .fnStoreConfigurationError => 0x3#4
  | .ackReply | .ackCommand | .nack01 | .nack02 | .nack03 | .nack04 | .nack05 | .nack06 | .nack07 | .nack08 | .nack09 | .nack0A => 0x6#4

/-- LEN of the request an instruction is. -/
def lenOf : Instr → Nat
  | .crc _ _ len | .validate _ _ len | .lookup _ _ len | .encode _ _ len | .decode _ _ len => len.toNat
  | .classifyAck _ _ len | .classifySensor _ _ len | .illegalOp _ _ _ len _ _ | .readid _ len | .config _ len => len.toNat
  | .setdemand _ => 3
  | .readsensor _ => 2
  | .go _ | .stop _ | .status _ | .storecfg _ => 0
  | .fnGo | .fnStop | .fnStatus | .fnSetDemand | .fnReadSensor | .fnReadIdentification => 0
  | .fnConfigurationReadWrite | .fnStoreConfiguration => 0
  | .fnGoError | .fnStopError | .fnStatusError | .fnSetDemandError | .fnReadSensorError | .fnReadIdentificationError => 0
  | .fnConfigurationReadWriteError | .fnStoreConfigurationError => 0
  | .ackReply | .ackCommand | .nack01 | .nack02 | .nack03 | .nack04 | .nack05 | .nack06 | .nack07 | .nack08 | .nack09 | .nack0A => 0

/-- The states a run can be in. -/
structure State.Inv (s : State) : Prop where
  /-- The host never observes BUSY = 1 (spec/10_state.md R26). -/
  idle : s.busy = false
  /-- REQ_BUF is in canonical form and has 31 bytes (R25). -/
  reqBufForm : Memory.wf s.reqBuf ∧ Memory.below 31 s.reqBuf
  /-- OBUF is in canonical form and has 16 bytes (R29). -/
  obufForm : Memory.wf s.obuf ∧ Memory.below 16 s.obuf
  /-- M_DATA is in canonical form and has 11 bytes (R32). -/
  mDataForm : Memory.wf s.mData ∧ Memory.below 11 s.mData
  /-- Before the first response, no response register holds a value (R38). -/
  quiet : s.rspValid = false → s.rspHdr = none ∧ s.rspErr = none ∧ s.NoOutput
  /-- With RSP_VALID = 1 both response words hold a value, RES_OP is the OP of the request in REQ_HDR (R27), and exactly the output group
  of that operation, or none, holds a value (R39). -/
  responded : s.rspValid = true → ∃ w h e, s.reqHdr = some w ∧ s.rspHdr = some h ∧ s.rspErr = some e ∧
    resOpField h = opField w ∧ s.OnlyGroupOf (resOpField h)
  /-- A status is one of R72's, the reserved bits of RSP_HDR read 0 (R27). -/
  rspHdrBits : ∀ h, s.rspHdr = some h → (statusField h ≤ 0x9#4 ∨ statusField h = 0xF#4) ∧ h.extractLsb' 5 3 = 0#3 ∧ h.extractLsb' 12 20 = 0#20
  /-- After a failure no output group holds a value (R39 step 5). -/
  failed : ∀ h, s.rspHdr = some h → statusField h ≠ 0x0#4 → s.NoOutput
  /-- On status OK all four error bytes are 0 (R28). -/
  okNoError : ∀ h, s.rspHdr = some h → statusField h = 0x0#4 → s.rspErr = some 0#32
  /-- OLEN is 5..16, and OBUF holds exactly the bytes below it (R29). -/
  encGroup : ∀ n, s.olen = some n → 5 ≤ n.toNat ∧ n.toNat ≤ 16 ∧ ∀ i, (Memory.read s.obuf i).isSome = decide (i < n.toNat)
  /-- The upper half of CRC_RES reads 0 (R30). -/
  crcBits : ∀ w, s.crcRes = some w → w.extractLsb' 16 16 = 0#16
  /-- DESC bits 31:26 read 0, and neither kind is 3 (R31). -/
  descBits : ∀ w, s.desc = some w → w.extractLsb' 26 6 = 0#6 ∧ w.extractLsb' 12 2 ≠ 3#2 ∧ w.extractLsb' 19 2 ≠ 3#2
  /-- M_DLEN is at most 11, M_DATA holds exactly the bytes below it, MSG_HDR bits 31:28 and MSG_CRC bits 31:16 read 0 (R32). -/
  msgGroup : ∀ w, s.msgHdr = some w → w.extractLsb' 28 4 = 0#4 ∧ (w.extractLsb' 24 4).toNat ≤ 11 ∧
    (∀ i, (Memory.read s.mData i).isSome = decide (i < (w.extractLsb' 24 4).toNat)) ∧ ∃ c, s.msgCrc = some c ∧ c.extractLsb' 16 16 = 0#16
  /-- The reserved bits of ACK_RES read 0 and ACLASS is not 3 (R33). -/
  ackBits : ∀ w, s.ackRes = some w → w.extractLsb' 2 6 = 0#6 ∧ w.extractLsb' 16 16 = 0#16 ∧ w.extractLsb' 0 2 ≠ 3#2
  /-- The reserved bits of SENS_RES read 0 and SCLASS is not 3 (R34). -/
  sensBits : ∀ w, s.sensRes = some w → w.extractLsb' 2 6 = 0#6 ∧ w.extractLsb' 16 16 = 0#16 ∧ w.extractLsb' 0 2 ≠ 3#2

end Sys2Proof.Machine
end

