-- ==== Sys2Proof/Certificates/Slice0/Obligations.lean ====
section
/-! DEFINITION. The statements for the provers. Each says what spec/ says, in words and numbers written out here where that is possible. -/

open Sys2Proof Sys2Proof.Machine

/-! ## Encodings -/

/-- Decoding the encoding of a well-formed instruction gives it back (spec/30_encoding.md R70, R71, R78, R79, R84). -/
def Obligations.DecodeInvertsEncode : Prop :=
  ∀ i : Instr, i.WellFormed = true → decode (encode i) = .ok i

/-- Every header word decodes to a well-formed instruction whose encoding is that word: no bit is dropped (R70, R74). -/
def Obligations.HeaderDecodingKeepsEveryBit : Prop :=
  ∀ w : Word, (decodeHeader w).WellFormed = true ∧ encode (decodeHeader w) = .header w

/-- Words written out bit by bit from R70, R71, R78, R79 and R84 decode to what they stand for. -/
def Obligations.SampleWordsDecode : Prop :=
  decodeHeader 0b00000000000000000000001100000001#32 = .crc 0x00#8 0x00#8 3#5 ∧
  decodeHeader 0b00000000000101100000000000000010#32 = .validate 0x00#8 0x16#8 0#5 ∧
  decodeHeader 0b11000001000000000000000000000011#32 = .lookup 0xC1#8 0x00#8 0#5 ∧
  decodeHeader 0b11000001000101010000000000000100#32 = .encode 0xC1#8 0x15#8 0#5 ∧
  decodeHeader 0b01000001000101010000010100000101#32 = .decode 0x41#8 0x15#8 5#5 ∧
  decodeHeader 0b00000000100110010000000000000110#32 = .classifyAck 0x00#8 0x99#8 0#5 ∧
  decodeHeader 0b01000101000000000000010000000111#32 = .classifySensor 0x45#8 0x00#8 4#5 ∧
  decodeHeader 0b00000000000101010010000000000010#32 = .illegalOp 0x00#8 0x15#8 1#3 0#5 0#4 2#4 ∧
  decodeHeader 0b01000001000101010000000000000100#32 = .go 0x15#8 ∧
  decodeHeader 0b01000100001000000000001100000100#32 = .setdemand 0x20#8 ∧
  decodeFunctionByte 0b01000101#8 = .ok .fnReadSensor ∧
  decodeFunctionByte 0b11100101#8 = .ok .fnStoreConfigurationError ∧
  decodeAckByte 0b00010000#8 = .ok .ackReply ∧
  decodeAckByte 0b00001010#8 = .ok .nack0A

/-- R74, R221: a header is ILLEGAL_OP exactly when its OP is 0x0 or 0x8..0xF or a reserved field is not zero, and then it performs no
computation: it ends with STATUS = ILLEGAL_OP, RETRY 0, E0 = OP, E1 = REQ_HDR[15:8], E2 = REQ_HDR[7:0], E3 = 0, and no group holds a value. -/
def Obligations.ReservedHeadersAreIllegal : Prop :=
  (∀ w : Word, (∃ f a rsv1 len rsv0 op, decodeHeader w = .illegalOp f a rsv1 len rsv0 op) ↔
    (w.extractLsb' 0 4 = 0#4 ∨ 8#4 ≤ w.extractLsb' 0 4 ∨ w.extractLsb' 4 4 ≠ 0#4 ∨ w.extractLsb' 13 3 ≠ 0#3)) ∧
  ∀ (w : Word) (s : State),
    (w.extractLsb' 0 4 = 0#4 ∨ 8#4 ≤ w.extractLsb' 0 4 ∨ w.extractLsb' 4 4 ≠ 0#4 ∨ w.extractLsb' 13 3 ≠ 0#3) →
    ∃ t, exec (decodeHeader w) s = .next t ∧
      t.Responds (0#20 ++ w.extractLsb' 0 4 ++ 0x0F#8) (0#8 ++ w.extractLsb' 0 8 ++ w.extractLsb' 8 8 ++ (0#4 ++ w.extractLsb' 0 4)) ∧
      t.NoOutput ∧ s.SameRequest t

/-- R71: with the reserved fields zero, the OP field selects the operation, and its operands are the fields of R70. An ENCODE word that R84
names does what ENCODE of the same fields does. -/
def Obligations.OperationMap : Prop :=
  ∀ w : Word, w.extractLsb' 4 4 = 0#4 → w.extractLsb' 13 3 = 0#3 →
    let f := w.extractLsb' 24 8
    let a := w.extractLsb' 16 8
    let len := w.extractLsb' 8 5
    (w.extractLsb' 0 4 = 0x1#4 → decodeHeader w = .crc f a len) ∧
    (w.extractLsb' 0 4 = 0x2#4 → decodeHeader w = .validate f a len) ∧
    (w.extractLsb' 0 4 = 0x3#4 → decodeHeader w = .lookup f a len) ∧
    (w.extractLsb' 0 4 = 0x4#4 → ∀ s, exec (decodeHeader w) s = exec (.encode f a len) s) ∧
    (w.extractLsb' 0 4 = 0x5#4 → decodeHeader w = .decode f a len) ∧
    (w.extractLsb' 0 4 = 0x6#4 → decodeHeader w = .classifyAck f a len) ∧
    (w.extractLsb' 0 4 = 0x7#4 → decodeHeader w = .classifySensor f a len)

/-- R84: each pseudo-instruction is the ENCODE of its expansion, as an instruction and as a line of the assembler. -/
def Obligations.PseudoInstructionsExpand : Prop :=
  (∀ (a : Byte) (len : BitVec 5) (s : State),
    exec (.go a) s = exec (.encode 0x41#8 a 0#5) s ∧ exec (.stop a) s = exec (.encode 0x42#8 a 0#5) s ∧
    exec (.status a) s = exec (.encode 0x43#8 a 0#5) s ∧ exec (.setdemand a) s = exec (.encode 0x44#8 a 3#5) s ∧
    exec (.readsensor a) s = exec (.encode 0x45#8 a 2#5) s ∧ exec (.readid a len) s = exec (.encode 0x46#8 a len) s ∧
    exec (.config a len) s = exec (.encode 0x64#8 a len) s ∧ exec (.storecfg a) s = exec (.encode 0x65#8 a 0#5) s) ∧
  ∀ (a d0 d1 d2 : Byte) (d : List Byte),
    (AsmLine.go a).assemble = (AsmLine.encode a 0x41#8 []).assemble ∧ (AsmLine.stop a).assemble = (AsmLine.encode a 0x42#8 []).assemble ∧
    (AsmLine.status a).assemble = (AsmLine.encode a 0x43#8 []).assemble ∧
    (AsmLine.setdemand a d0 d1 d2).assemble = (AsmLine.encode a 0x44#8 [d0, d1, d2]).assemble ∧
    (AsmLine.readsensor a d0 d1).assemble = (AsmLine.encode a 0x45#8 [d0, d1]).assemble ∧
    (AsmLine.readid a d).assemble = (AsmLine.encode a 0x46#8 d).assemble ∧
    (AsmLine.config a d).assemble = (AsmLine.encode a 0x64#8 d).assemble ∧
    (AsmLine.storecfg a).assemble = (AsmLine.encode a 0x65#8 []).assemble

/-! ## A step -/

/-- When the host's next action stores the encoding of a well-formed instruction to REQ_HDR and BUSY is 0, the step is exec of that
instruction, on the state whose REQ_HDR holds the word, with BUSY set and RSP_VALID cleared (R24, R39). -/
def Obligations.StepRunsStoredHeader : Prop :=
  ∀ (s : State) (i : Instr) (w : Word) (data : BitVec 64) (rest : List HostAction), i.WellFormed = true → encode i = .header w →
    data.setWidth 32 = w → s.host = .write 0 .b32 0x00 data :: rest → s.busy = false →
    step s = exec i (s.underWay rest w)

/-- The model's choice of log entry 2: a wire byte is run as the lookup, or the classification, of that byte, the header of that request in
REQ_HDR; a byte outside its map is the same request, with its failure. -/
def Obligations.StepRunsWireByte : Prop :=
  ∀ (s : State) (b : Byte) (rest : List HostAction), s.busy = false →
    (∀ i, decodeFunctionByte b = .ok i → s.host = .functionByte b :: rest →
      step s = exec i (s.underWay rest (b ++ 0x000003#24))) ∧
    (∀ e, decodeFunctionByte b = .error e → s.host = .functionByte b :: rest →
      step s = exec (.lookup b 0#8 0#5) (s.underWay rest (b ++ 0x000003#24))) ∧
    (∀ i, decodeAckByte b = .ok i → s.host = .ackByte b :: rest →
      step s = exec i (s.underWay rest (0x00#8 ++ b ++ 0x0006#16))) ∧
    (∀ e, decodeAckByte b = .error e → s.host = .ackByte b :: rest →
      step s = exec (.classifyAck 0#8 b 0#5) (s.underWay rest (0x00#8 ++ b ++ 0x0006#16)))

/-- R251: reset, also of a state with BUSY = 1, writes no response and leaves the state of R250: no request register, response register or
output group holds a value, BUSY = RSP_VALID = 0. (That the host's pending actions and its record stay is the model's choice, log entry 9.) -/
def Obligations.ResetAbandonsTheOperation : Prop :=
  ∀ (s : State) (rest : List HostAction), s.host = .reset :: rest →
    ∃ t, step s = .next t ∧ t.reqHdr = none ∧ (∀ i, Memory.read t.reqBuf i = none) ∧ t.busy = false ∧ t.rspValid = false ∧
      t.rspHdr = none ∧ t.rspErr = none ∧ t.NoOutput ∧ t.host = rest ∧ t.reads = s.reads ∧ t.earlierReads = s.earlierReads

/-- The reset values of R41: every register of the window, read back through the window map, and the constants. -/
def Obligations.ResetValues : Prop :=
  (∀ r : Reg32, State.reset.readReg32 r =
    match r with
    | .ctrlStat => some 0#32
    | .reserved => some 0#32
    | .tIdleHalfchars => some 7#32
    | .tMinReplyUs => some 4000#32
    | .tMaxReplyUs => some 10000#32
    | .tMaxStoreUs => some 1000000#32
    | .reqHdr | .rspHdr | .rspErr | .olen | .crcRes | .desc | .msgHdr | .msgCrc | .ackRes | .sensRes => none) ∧
  (∀ r : ByteReg, State.reset.readByteReg r = if r = .reserved then some 0#8 else none) ∧
  State.reset.host = [] ∧ State.reset.reads = [] ∧ State.reset.earlierReads = []

/-- R24, R26: after a step that stored a header word, REQ_HDR holds that word, BUSY is 0 again and RSP_VALID is 1; what the host had read since
the request before stands with that request. (That record is the model's own, log entry 1.) -/
def Obligations.StoredHeaderIsAnswered : Prop :=
  ∀ (s t : State) (data : BitVec 64) (rest : List HostAction), s.host = .write 0 .b32 0x00 data :: rest → step s = .next t →
    t.reqHdr = some (data.setWidth 32) ∧ t.busy = false ∧ t.rspValid = true ∧ t.host = rest ∧ t.reads = [] ∧ t.earlierReads = s.reads :: s.earlierReads ∧
      ∀ i, Memory.read t.reqBuf i = Memory.read s.reqBuf i

/-! ## CRC -/

/-- R100: the accumulator starts at 0xFFFF, and each byte is XORed into its low byte and followed by 8 rounds. -/
def Obligations.CrcAlgorithm : Prop :=
  crc16 [] = 0xFFFF#16 ∧
  ∀ (s : List Byte) (b : Byte),
    crc16 (s ++ [b]) =
      (fun acc : Half => if acc.getLsbD 0 then (acc >>> 1) ^^^ 0xA001#16 else acc >>> 1)^[8] (crc16 s ^^^ b.setWidth 16)

/-- R102: CRC of LEN bytes that hold a value writes their CRC to CRC_RES, with STATUS OK and RETRY 0, and leaves every other group without
a value and the request as it was. -/
def Obligations.CrcResult : Prop :=
  ∀ (f a : Byte) (len : BitVec 5) (s : State) (d : List Byte), d.length = len.toNat → s.BufHolds d →
    ∃ t, exec (.crc f a len) s = .next t ∧ t.crcRes = some ((crc16 d).setWidth 32) ∧ t.Responds 0x00000100#32 0#32 ∧
      t.OnlyGroupOf 0x1#4 ∧ s.SameRequest t

/-- R104 (c): a sequence followed by its CRC, low byte first, has the CRC 0x0000. -/
def Obligations.CrcResidueIsZero : Prop :=
  ∀ s : List Byte, crc16 (s ++ [(crc16 s).extractLsb' 0 8, (crc16 s).extractLsb' 8 8]) = 0x0000#16

/-- R104 (d): one changed byte of a frame with a correct CRC, at any place, makes DECODE fail with CrcMismatch. -/
def Obligations.SingleByteCorruptionIsDetected : Prop :=
  ∀ (body : List Byte) (i : Nat) (b : Byte) (f e : Byte) (len : BitVec 5) (s : State),
    let frame := body ++ [(crc16 body).extractLsb' 0 8, (crc16 body).extractLsb' 8 8]
    3 ≤ body.length → body.length ≤ 14 → len.toNat = frame.length → i < frame.length → frame[i]? ≠ some b → s.BufHolds (frame.set i b) →
    ∃ t, exec (.decode f e len) s = .next t ∧ t.rspHdr = some 0x00000516#32 ∧ t.NoOutput ∧ s.SameRequest t

/-! ## VALIDATE -/

/-- R140, R141: VALIDATE ends OK for 0x00 and every odd address of 0x15..0xF7, with InvalidAddress and E0 = A for every other. -/
def Obligations.ValidateResult : Prop :=
  ∀ (f a : Byte) (len : BitVec 5) (s : State),
    ∃ t, exec (.validate f a len) s = .next t ∧ t.NoOutput ∧ s.SameRequest t ∧
      if a = 0x00#8 ∨ (a.getLsbD 0 = true ∧ 0x15#8 ≤ a ∧ a ≤ 0xF7#8) then t.Responds 0x00000200#32 0#32
      else t.Responds 0x00000201#32 (a.setWidth 32)

/-- R142: the valid addresses are 0x00 and the 114 odd values 0x15, 0x17, ..., 0xF7, 115 in all, and every other byte is invalid. -/
def Obligations.ValidAddressesAre115 : Prop :=
  ((List.range 256).filter fun n => addrValid (BitVec.ofNat 8 n)) = 0x00 :: (List.range 114).map (fun k => 0x15 + 2 * k) ∧
  ((List.range 256).filter fun n => addrValid (BitVec.ofNat 8 n)).length = 115

/-! ## LOOKUP and the wire function bytes -/

/-- R120, R122, R125: LOOKUP of each seeded code, and of its error form, writes that descriptor to DESC. -/
def Obligations.LookupDescriptors : Prop :=
  ∀ p ∈ ([(0x41#8, 0x00A14041#32), (0x42#8, 0x00A14142#32), (0x43#8, 0x00C14243#32), (0x44#8, 0x01020344#32), (0x45#8, 0x0121C445#32),
          (0x46#8, 0x00081546#32), (0x64#8, 0x00081664#32), (0x65#8, 0x00A14765#32), (0xC1#8, 0x000828C1#32), (0xC2#8, 0x000828C2#32),
          (0xC3#8, 0x000828C3#32), (0xC4#8, 0x000828C4#32), (0xC5#8, 0x000828C5#32), (0xC6#8, 0x000828C6#32), (0xE4#8, 0x000828E4#32),
          (0xE5#8, 0x000828E5#32)] : List (Byte × Word)),
    ∀ (a : Byte) (len : BitVec 5) (s : State),
      ∃ t, exec (.lookup p.1 a len) s = .next t ∧ t.desc = some p.2 ∧ t.Responds 0x00000300#32 0#32 ∧ t.OnlyGroupOf 0x3#4 ∧ s.SameRequest t

/-- R124, R125: LOOKUP of a code whose base is not seeded ends with UnknownFunctionCode and E0 = F, whatever its bit 7. -/
def Obligations.LookupUnknownCode : Prop :=
  ∀ (f a : Byte) (len : BitVec 5) (s : State),
    f &&& 0x7F#8 ∉ ([0x41#8, 0x42#8, 0x43#8, 0x44#8, 0x45#8, 0x46#8, 0x64#8, 0x65#8] : List Byte) →
    ∃ t, exec (.lookup f a len) s = .next t ∧ t.Responds 0x00000303#32 (f.setWidth 32) ∧ t.NoOutput ∧ s.SameRequest t

/-- The model's choice of log entry 2: each wire function byte of the opcode table, run as an instruction, writes its descriptor (R120, R122)
to DESC. -/
def Obligations.FunctionByteDescriptors : Prop :=
  ∀ p ∈ ([(.fnGo, 0x00A14041#32), (.fnStop, 0x00A14142#32), (.fnStatus, 0x00C14243#32), (.fnSetDemand, 0x01020344#32),
          (.fnReadSensor, 0x0121C445#32), (.fnReadIdentification, 0x00081546#32), (.fnConfigurationReadWrite, 0x00081664#32),
          (.fnStoreConfiguration, 0x00A14765#32), (.fnGoError, 0x000828C1#32), (.fnStopError, 0x000828C2#32),
          (.fnStatusError, 0x000828C3#32), (.fnSetDemandError, 0x000828C4#32), (.fnReadSensorError, 0x000828C5#32),
          (.fnReadIdentificationError, 0x000828C6#32), (.fnConfigurationReadWriteError, 0x000828E4#32),
          (.fnStoreConfigurationError, 0x000828E5#32)] : List (Instr × Word)),
    ∀ s : State, ∃ t, exec p.1 s = .next t ∧ t.desc = some p.2 ∧ t.Responds 0x00000300#32 0#32 ∧ t.OnlyGroupOf 0x3#4 ∧ s.SameRequest t

/-- The function code map of the wire (R78) holds exactly the codes that Lookup answers (R124). -/
def Obligations.FunctionByteMapIsTheCatalog : Prop :=
  ∀ b : Byte, (∃ i, decodeFunctionByte b = .ok i) ↔ (lookup b).isSome = true

/-! ## ENCODE and the pseudo-instructions -/

/-- R155, R156: on a valid address, a seeded base code and a data length its command admits, ENCODE writes the frame
[address, function, 0x20] ++ data ++ [crc low, crc high] to OBUF, its length to OLEN, and nothing else. -/
def Obligations.EncodeFrame : Prop :=
  ∀ (f a : Byte) (len : BitVec 5) (s : State) (d : List Byte),
    (a = 0x00#8 ∨ (a.getLsbD 0 = true ∧ 0x15#8 ≤ a ∧ a ≤ 0xF7#8)) →
    (f ∈ ([0x41#8, 0x42#8, 0x43#8, 0x65#8] : List Byte) ∧ len.toNat = 0 ∨ f = 0x44#8 ∧ len.toNat = 3 ∨ f = 0x45#8 ∧ len.toNat = 2 ∨
      f ∈ ([0x46#8, 0x64#8] : List Byte) ∧ len.toNat ≤ 11) →
    d.length = len.toNat → s.BufHolds d →
    ∃ t, exec (.encode f a len) s = .next t ∧ t.olen = some (BitVec.ofNat 32 (5 + len.toNat)) ∧
      (let c := crc16 ([a, f, 0x20#8] ++ d)
       ∀ i, Memory.read t.obuf i = ([a, f, 0x20#8] ++ d ++ [c.extractLsb' 0 8, c.extractLsb' 8 8])[i]?) ∧
      t.Responds 0x00000400#32 0#32 ∧ t.OnlyGroupOf 0x4#4 ∧ s.SameRequest t

/-- R84, R155, R156: the same of each pseudo-instruction, with the function code and data length its expansion fixes. -/
def Obligations.PseudoInstructionFrames : Prop :=
  ∀ (a : Byte) (len : BitVec 5),
    ∀ p ∈ ([(.go a, 0x41#8, 0), (.stop a, 0x42#8, 0), (.status a, 0x43#8, 0), (.setdemand a, 0x44#8, 3), (.readsensor a, 0x45#8, 2),
            (.readid a len, 0x46#8, len.toNat), (.config a len, 0x64#8, len.toNat), (.storecfg a, 0x65#8, 0)] : List (Instr × Byte × Nat)),
    ∀ (s : State) (d : List Byte), (a = 0x00#8 ∨ (a.getLsbD 0 = true ∧ 0x15#8 ≤ a ∧ a ≤ 0xF7#8)) → p.2.2 ≤ 11 →
      d.length = p.2.2 → s.BufHolds d →
      ∃ t, exec p.1 s = .next t ∧ t.olen = some (BitVec.ofNat 32 (5 + p.2.2)) ∧
        (let c := crc16 ([a, p.2.1, 0x20#8] ++ d)
         ∀ i, Memory.read t.obuf i = ([a, p.2.1, 0x20#8] ++ d ++ [c.extractLsb' 0 8, c.extractLsb' 8 8])[i]?) ∧
        t.Responds 0x00000400#32 0#32 ∧ t.OnlyGroupOf 0x4#4 ∧ s.SameRequest t

/-- R150, R151, R152, R153, R154, R225: the failures of ENCODE, the first of its checks that fails, with its offending bytes; no buffer byte is
read. -/
def Obligations.EncodeFailures : Prop :=
  ∀ (f a : Byte) (len : BitVec 5) (s : State),
    let valid := a = 0x00#8 ∨ (a.getLsbD 0 = true ∧ 0x15#8 ≤ a ∧ a ≤ 0xF7#8)
    let fails (hdr err : Word) := ∃ t, exec (.encode f a len) s = .next t ∧ t.Responds hdr err ∧ t.NoOutput ∧ s.SameRequest t
    (¬valid → fails 0x00000401#32 (a.setWidth 32)) ∧
    (valid → f.getLsbD 7 = true → fails 0x00000402#32 (f.setWidth 32)) ∧
    (valid → f.getLsbD 7 = false → f ∉ ([0x41#8, 0x42#8, 0x43#8, 0x44#8, 0x45#8, 0x46#8, 0x64#8, 0x65#8] : List Byte) →
      fails 0x00000403#32 (f.setWidth 32)) ∧
    (valid → ∀ p ∈ ([(0x41#8, 5#8), (0x42#8, 5#8), (0x43#8, 5#8), (0x44#8, 8#8), (0x45#8, 7#8), (0x65#8, 5#8)] : List (Byte × Byte)),
      f = p.1 → 3 + len.toNat + 2 ≠ p.2.toNat → fails 0x00000404#32 (0#16 ++ p.2 ++ len.setWidth 8)) ∧
    (valid → f = 0x46#8 ∨ f = 0x64#8 → 11 < len.toNat → fails 0x00000404#32 (0#16 ++ 16#8 ++ len.setWidth 8))

/-! ## DECODE -/

/-- R172, R177, R178: a reply of 5..16 bytes with a correct CRC, an acceptable address, a seeded base code and, unless it is an error reply or
of variable length, its fixed length, decodes to the Message of its fields; the ack byte may be any byte. -/
def Obligations.DecodeMessage : Prop :=
  ∀ (f e ra rf k clo chi : Byte) (data : List Byte) (len : BitVec 5) (s : State),
    data.length ≤ 11 → len.toNat = 5 + data.length → s.BufHolds ([ra, rf, k] ++ data ++ [clo, chi]) →
    crc16 ([ra, rf, k] ++ data) = chi ++ clo →
    ra.getLsbD 0 = true → 0x15#8 ≤ ra → ra ≤ 0xF7#8 → (e = 0x00#8 ∨ ra = e) →
    rf &&& 0x7F#8 ∈ ([0x41#8, 0x42#8, 0x43#8, 0x44#8, 0x45#8, 0x46#8, 0x64#8, 0x65#8] : List Byte) →
    (∀ p ∈ ([(0x41#8, 5), (0x42#8, 5), (0x43#8, 6), (0x44#8, 8), (0x45#8, 9), (0x65#8, 5)] : List (Byte × Nat)), rf = p.1 → len.toNat = p.2) →
    ∃ t h, exec (.decode f e len) s = .next t ∧ t.msgHdr = some h ∧ h.extractLsb' 0 8 = ra ∧ h.extractLsb' 8 7 = rf.extractLsb' 0 7 ∧
      h.getLsbD 15 = rf.getLsbD 7 ∧ h.extractLsb' 16 8 = k ∧ (h.extractLsb' 24 4).toNat = data.length ∧ h.extractLsb' 28 4 = 0#4 ∧
      t.msgCrc = some (0#16 ++ chi ++ clo) ∧ (∀ i, Memory.read t.mData i = data[i]?) ∧
      t.Responds 0x00000500#32 0#32 ∧ t.OnlyGroupOf 0x5#4 ∧ s.SameRequest t

/-- R171, R173, R174, R175, R176, R180: the failures of DECODE in the order of its steps, each with its offending bytes. -/
def Obligations.DecodeFailures : Prop :=
  ∀ (f e : Byte) (len : BitVec 5) (s : State),
    let fails (hdr err : Word) := ∃ t, exec (.decode f e len) s = .next t ∧ t.Responds hdr err ∧ t.NoOutput ∧ s.SameRequest t
    (len.toNat < 5 → fails 0x00000515#32 (0#16 ++ 5#8 ++ len.setWidth 8)) ∧
    (16 < len.toNat → fails 0x00000515#32 (0#16 ++ 16#8 ++ len.setWidth 8)) ∧
    ∀ (ra rf k clo chi : Byte) (data : List Byte), data.length ≤ 11 → len.toNat = 5 + data.length →
      s.BufHolds ([ra, rf, k] ++ data ++ [clo, chi]) →
      let c := crc16 ([ra, rf, k] ++ data)
      let good := c = chi ++ clo
      let addr := ra ≠ 0x00#8 ∧ (ra.getLsbD 0 = true ∧ 0x15#8 ≤ ra ∧ ra ≤ 0xF7#8) ∧ (e = 0x00#8 ∨ ra = e)
      (¬good → fails 0x00000516#32 (c.extractLsb' 8 8 ++ c.extractLsb' 0 8 ++ chi ++ clo)) ∧
      (good → ¬addr → fails 0x00000507#32 (0#16 ++ e ++ ra)) ∧
      (good → addr → rf &&& 0x7F#8 ∉ ([0x41#8, 0x42#8, 0x43#8, 0x44#8, 0x45#8, 0x46#8, 0x64#8, 0x65#8] : List Byte) →
        fails 0x00000503#32 (rf.setWidth 32)) ∧
      (good → addr → ∀ p ∈ ([(0x41#8, 5#8), (0x42#8, 5#8), (0x43#8, 6#8), (0x44#8, 8#8), (0x45#8, 9#8), (0x65#8, 5#8)] : List (Byte × Byte)),
        rf = p.1 → len.toNat ≠ p.2.toNat → fails 0x00000515#32 (0#16 ++ p.2 ++ len.setWidth 8))

/-- R179: the expected function F changes nothing DECODE does. -/
def Obligations.DecodeIgnoresExpectedFunction : Prop :=
  ∀ (f f' e : Byte) (len : BitVec 5) (s : State), exec (.decode f e len) s = exec (.decode f' e len) s

/-- R158: the frame of an ENCODE, decoded with the same address, gives back the same address, function and data, with M_ACK = 0x20, exactly
for a non-zero address and the functions 0x41, 0x42, 0x44, 0x46, 0x64, 0x65; for a non-zero address Status and Read Sensor decode to
MalformedFrame, and address 0x00 to AddressMismatch. -/
def Obligations.EncodeDecodeRoundTrip : Prop :=
  ∀ (f a g : Byte) (len n : BitVec 5) (s t s' : State) (d : List Byte),
    d.length = len.toNat → s.BufHolds d → exec (.encode f a len) s = .next t → t.rspHdr = some 0x00000400#32 →
    t.olen = some (n.setWidth 32) → (∀ i, i < n.toNat → Memory.read s'.reqBuf i = Memory.read t.obuf i) →
    ∃ u, exec (.decode g a n) s' = .next u ∧
      (a ≠ 0x00#8 → f ∈ ([0x41#8, 0x42#8, 0x44#8, 0x46#8, 0x64#8, 0x65#8] : List Byte) →
        u.rspHdr = some 0x00000500#32 ∧ (∃ h, u.msgHdr = some h ∧ h.extractLsb' 0 8 = a ∧ h.extractLsb' 8 8 = f ∧ h.extractLsb' 16 8 = 0x20#8 ∧
          (h.extractLsb' 24 4).toNat = d.length) ∧ ∀ i, Memory.read u.mData i = d[i]?) ∧
      (a ≠ 0x00#8 → f = 0x43#8 ∨ f = 0x45#8 → u.rspHdr = some 0x00000515#32) ∧
      (a = 0x00#8 → u.rspHdr = some 0x00000507#32)

/-! ## The classifier -/

/-- R202 with R201: CLASSIFY_ACK of every byte. RETRY of a NACK is 0 for 0x04, 1 for 0x06 and the parameter's for every other code. -/
def Obligations.ClassifyAckResult : Prop :=
  ∀ (f k : Byte) (len : BitVec 5) (s : State),
    ∃ t, exec (.classifyAck f k len) s = .next t ∧ t.OnlyGroupOf 0x6#4 ∧ s.SameRequest t ∧
      (k = 0x10#8 → t.Responds 0x00000600#32 0#32 ∧ t.ackRes = some 0x00000000#32) ∧
      (k = 0x20#8 → t.Responds 0x00000600#32 0#32 ∧ t.ackRes = some 0x00000001#32) ∧
      (0x01#8 ≤ k → k ≤ 0x0A#8 →
        t.Responds (if k = 0x04#8 then 0x00000600#32 else if k = 0x06#8 then 0x00000610#32
          else if Config.nackRetryable k then 0x00000610#32 else 0x00000600#32) 0#32 ∧ t.ackRes = some (0#16 ++ k ++ 2#8)) ∧
      (k ≠ 0x10#8 → k ≠ 0x20#8 → ¬(0x01#8 ≤ k ∧ k ≤ 0x0A#8) → t.Responds 0x00000608#32 (k.setWidth 32) ∧ t.NoOutput)

/-- The model's choice of log entry 2: each wire ack byte of the opcode table, run as an instruction, is classified as R202 says. -/
def Obligations.AckByteClasses : Prop :=
  ∀ p ∈ ([(.ackReply, false, 0x00000000#32), (.ackCommand, false, 0x00000001#32), (.nack01, Config.nackRetryable 0x01#8, 0x00000102#32),
          (.nack02, Config.nackRetryable 0x02#8, 0x00000202#32), (.nack03, Config.nackRetryable 0x03#8, 0x00000302#32),
          (.nack04, false, 0x00000402#32), (.nack05, Config.nackRetryable 0x05#8, 0x00000502#32), (.nack06, true, 0x00000602#32),
          (.nack07, Config.nackRetryable 0x07#8, 0x00000702#32), (.nack08, Config.nackRetryable 0x08#8, 0x00000802#32),
          (.nack09, Config.nackRetryable 0x09#8, 0x00000902#32), (.nack0A, Config.nackRetryable 0x0A#8, 0x00000A02#32)] :
          List (Instr × Bool × Word)),
    ∀ s : State, ∃ t, exec p.1 s = .next t ∧ t.ackRes = some p.2.2 ∧
      t.Responds (if p.2.1 then 0x00000610#32 else 0x00000600#32) 0#32 ∧ t.OnlyGroupOf 0x6#4 ∧ s.SameRequest t

/-- R206: for another function byte than 0x45, an error reply's among them, or a payload that does not reach the fault byte, CLASSIFY_SENSOR is
NOT_APPLICABLE and reads no buffer byte. -/
def Obligations.ClassifySensorNotApplicable : Prop :=
  ∀ (f a : Byte) (len : BitVec 5) (s : State), f ≠ 0x45#8 ∨ len.toNat ≤ Config.sensorFaultIndex.val →
    ∃ t, exec (.classifySensor f a len) s = .next t ∧ t.sensRes = some 0#32 ∧ t.Responds 0x00000700#32 0#32 ∧ t.OnlyGroupOf 0x7#4 ∧
      s.SameRequest t

/-- R206: the fault byte b of a Read-Sensor reply: NO_FAULT for the no-fault value, FAULT with its code where the ROM defines it, otherwise
UnknownSensorFault with E0 = b. It holds whatever the OPEN parameters are. -/
def Obligations.ClassifySensorFaultByte : Prop :=
  ∀ (a b : Byte) (len : BitVec 5) (s : State), Config.sensorFaultIndex.val < len.toNat →
    Memory.read s.reqBuf Config.sensorFaultIndex.val = some b →
    ∃ t, exec (.classifySensor 0x45#8 a len) s = .next t ∧ t.OnlyGroupOf 0x7#4 ∧ s.SameRequest t ∧
      (b = sensorNoFault → t.Responds 0x00000700#32 0#32 ∧ t.sensRes = some 1#32) ∧
      (b ≠ sensorNoFault → sensorFaultPresent b = true → t.Responds 0x00000700#32 0#32 ∧ t.sensRes = some (0#16 ++ b ++ 2#8)) ∧
      (b ≠ sensorNoFault → sensorFaultPresent b = false → t.Responds 0x00000709#32 (b.setWidth 32) ∧ t.NoOutput)

/-- R204, R206: no byte outside 0x21..0x44 is a defined fault, the no-fault value lies outside that range, and so a fault byte outside it is
UnknownSensorFault unless it is the no-fault value. -/
def Obligations.SensorCodesOutsideTheRange : Prop :=
  ¬(0x21#8 ≤ sensorNoFault ∧ sensorNoFault ≤ 0x44#8) ∧
  ∀ b : Byte, ¬(0x21#8 ≤ b ∧ b ≤ 0x44#8) → sensorFaultPresent b = false ∧
    (b ≠ sensorNoFault → ∀ (a : Byte) (len : BitVec 5) (s : State), Config.sensorFaultIndex.val < len.toNat →
      Memory.read s.reqBuf Config.sensorFaultIndex.val = some b →
      ∃ t, exec (.classifySensor 0x45#8 a len) s = .next t ∧ t.Responds 0x00000709#32 (b.setWidth 32) ∧ t.NoOutput)

/-- R209, the spec's reading: the host's outcome names, from the registers a CLASSIFY_ACK and a CLASSIFY_SENSOR left. Accepted needs ack SUCCESS
and, for a Read-Sensor reply, a sensor step that succeeded without a fault; a step that failed is a table gap and no acceptance.
INFERRED (spec/93_implementation_defined.md section 1, log entry 17): the clauses on a Read-Sensor reply take the ack and the sensor fault as
independent, so that a SUCCESS ack may come with an active fault. -/
def Obligations.OutcomeNames : Prop :=
  ∀ (f g k a : Byte) (len len' : BitVec 5) (s s' t u : State),
    exec (.classifyAck g k len') s' = .next t → exec (.classifySensor f a len) s = .next u →
    let nack := 0x01#8 ≤ k ∧ k ≤ 0x0A#8
    let inspected := f = 0x45#8 ∧ Config.sensorFaultIndex.val < len.toNat
    let faultByte (p : Byte → Prop) := ∃ b, Memory.read s.reqBuf Config.sensorFaultIndex.val = some b ∧ p b
    (accepted t.ackRes false none = true ↔ k = 0x10#8) ∧
    (nackClassified t.ackRes = true ↔ nack) ∧
    (tableGap t.ackRes false none = true ↔ k ≠ 0x10#8 ∧ k ≠ 0x20#8 ∧ ¬nack) ∧
    (accepted t.ackRes true u.sensRes = true ↔ k = 0x10#8 ∧ (¬inspected ∨ faultByte fun b => b = sensorNoFault)) ∧
    (faultClassified u.sensRes = true ↔ inspected ∧ faultByte fun b => b ≠ sensorNoFault ∧ sensorFaultPresent b = true) ∧
    (tableGap t.ackRes true u.sensRes = true ↔ (k ≠ 0x10#8 ∧ k ≠ 0x20#8 ∧ ¬nack) ∨
      (inspected ∧ faultByte fun b => b ≠ sensorNoFault ∧ sensorFaultPresent b = false))

/-! ## ILLEGAL_OP -/

/-- R221: ILLEGAL_OP ends with STATUS 0xF, RETRY 0, RES_OP = E0 = OP, E1 = REQ_HDR[15:8], E2 = REQ_HDR[7:0], E3 = 0; no group holds a value. -/
def Obligations.IllegalOpResult : Prop :=
  ∀ (f a : Byte) (rsv1 : BitVec 3) (len : BitVec 5) (rsv0 op : BitVec 4) (s : State),
    ∃ t, exec (.illegalOp f a rsv1 len rsv0 op) s = .next t ∧
      t.Responds (0#20 ++ op ++ 0xF#8) (0#8 ++ (rsv0 ++ op) ++ (rsv1 ++ len) ++ (0#4 ++ op)) ∧ t.NoOutput ∧ s.SameRequest t

/-! ## What holds of every operation -/

/-- R39: whatever instruction goes on, it leaves the request registers, the host's pending actions and its record as they were, BUSY = 0 and
RSP_VALID = 1, RES_OP its OP, no other group with a value, its own group with a value on status OK (VALIDATE has none), and none on failure. -/
def Obligations.OperationFrame : Prop :=
  ∀ (i : Instr) (s t : State), exec i s = .next t →
    s.SameRequest t ∧ t.busy = false ∧ t.rspValid = true ∧
    ∃ h e, t.rspHdr = some h ∧ t.rspErr = some e ∧ h.extractLsb' 8 4 = opOf i ∧ t.OnlyGroupOf (opOf i) ∧
      (h.extractLsb' 0 4 ≠ 0#4 → t.NoOutput) ∧
      (h.extractLsb' 0 4 = 0#4 → e = 0#32 ∧
        (t.olen.isSome = true ↔ opOf i = 0x4#4) ∧ (t.crcRes.isSome = true ↔ opOf i = 0x1#4) ∧ (t.desc.isSome = true ↔ opOf i = 0x3#4) ∧
        (t.msgHdr.isSome = true ↔ opOf i = 0x5#4) ∧ (t.ackRes.isSome = true ↔ opOf i = 0x6#4) ∧ (t.sensRes.isSome = true ↔ opOf i = 0x7#4))

/-- R25, R38, R52: every instruction goes on, unless a byte of REQ.BUF[0 .. LEN] holds no value; then it may only be the fault of reading
such a byte. -/
def Obligations.OnlyValuelessBytesStop : Prop :=
  ∀ (i : Instr) (s : State), (∃ t, exec i s = .next t) ∨
    ∃ k, k < lenOf i ∧ Memory.read s.reqBuf k = none ∧ exec i s = .fault (.valuelessRead (0x10 + k))

/-- R25, R38, R52: every operation that needs a byte below LEN that holds no value is the fault of reading it, the first such byte where it reads
all LEN: CRC; DECODE of 5..16 bytes; ENCODE, and the pseudo-instruction of that word, whose checks pass; CLASSIFY_SENSOR, its fault byte alone.
(The other ENCODE commands admit no data, and no other operation reads a byte.) -/
def Obligations.ValuelessOperandFaults : Prop :=
  (∀ (f a : Byte) (len : BitVec 5) (s : State) (k : Nat), k < len.toNat → Memory.read s.reqBuf k = none →
    (∀ j, j < k → (Memory.read s.reqBuf j).isSome = true) →
    let faults (i : Instr) := exec i s = .fault (.valuelessRead (0x10 + k))
    faults (.crc f a len) ∧
    (5 ≤ len.toNat → len.toNat ≤ 16 → faults (.decode f a len)) ∧
    ((a = 0x00#8 ∨ (a.getLsbD 0 = true ∧ 0x15#8 ≤ a ∧ a ≤ 0xF7#8)) →
      (f = 0x44#8 ∧ len.toNat = 3 ∨ f = 0x45#8 ∧ len.toNat = 2 ∨ (f = 0x46#8 ∨ f = 0x64#8) ∧ len.toNat ≤ 11 → faults (.encode f a len)) ∧
      (len.toNat = 3 → faults (.setdemand a)) ∧ (len.toNat = 2 → faults (.readsensor a)) ∧
      (len.toNat ≤ 11 → faults (.readid a len) ∧ faults (.config a len)))) ∧
  ∀ (a : Byte) (len : BitVec 5) (s : State), Config.sensorFaultIndex.val < len.toNat →
    Memory.read s.reqBuf Config.sensorFaultIndex.val = none →
    exec (.classifySensor 0x45#8 a len) s = .fault (.valuelessRead (0x10 + Config.sensorFaultIndex.val))

/-- R20, R39 step 2, R58: the result of an operation depends on its request alone: two states that hold the same bytes below LEN get the same
response, whatever else they hold. -/
def Obligations.ResponseDependsOnRequestOnly : Prop :=
  ∀ (i : Instr) (s s' : State), (∀ k, k < lenOf i → Memory.read s.reqBuf k = Memory.read s'.reqBuf k) →
    (∀ r, exec i s = .fault r → exec i s' = .fault r) ∧
    ∀ t, exec i s = .next t → ∃ t', exec i s' = .next t' ∧ t'.rspHdr = t.rspHdr ∧ t'.rspErr = t.rspErr ∧ t'.obuf = t.obuf ∧ t'.olen = t.olen ∧
      t'.crcRes = t.crcRes ∧ t'.desc = t.desc ∧ t'.msgHdr = t.msgHdr ∧ t'.msgCrc = t.msgCrc ∧ t'.mData = t.mData ∧
      t'.ackRes = t.ackRes ∧ t'.sensRes = t.sensRes

/-! ## The window -/

/-- R23: a 32-bit load from a register that holds a value records that value and changes nothing else; a response register is loaded while
RSP_VALID = 1. (That REQ_HDR gives its reserved bits as they were written is the model's choice, log entry 20.) -/
def Obligations.RegisterLoads : Prop :=
  ∀ (s : State) (v : Word) (rest : List HostAction),
    let loads (off : Nat) := s.host = .read 0 .b32 off :: rest →
      step s = .next { s with host := rest, reads := ⟨.b32, off, v⟩ :: s.reads }
    (s.reqHdr = some v → loads 0x00) ∧
    (s.rspValid = true →
      (s.rspHdr = some v → loads 0x08) ∧ (s.rspErr = some v → loads 0x0C) ∧ (s.olen = some v → loads 0x40) ∧
      (s.crcRes = some v → loads 0x44) ∧ (s.desc = some v → loads 0x48) ∧ (s.msgHdr = some v → loads 0x4C) ∧
      (s.msgCrc = some v → loads 0x50) ∧ (s.ackRes = some v → loads 0x60) ∧ (s.sensRes = some v → loads 0x64))

/-- R23: an 8-bit load from REQ_BUF, OBUF or M_DATA records the byte, zero-extended, and changes nothing else. -/
def Obligations.ByteLoads : Prop :=
  ∀ (s : State) (b : Byte) (i : Nat) (rest : List HostAction),
    let loads (off : Nat) := s.host = .read 0 .b8 off :: rest →
      step s = .next { s with host := rest, reads := ⟨.b8, off, b.setWidth 32⟩ :: s.reads }
    (i < 31 → Memory.read s.reqBuf i = some b → loads (0x10 + i)) ∧
    (i < 16 → s.rspValid = true → Memory.read s.obuf i = some b → loads (0x30 + i)) ∧
    (i < 11 → s.rspValid = true → Memory.read s.mData i = some b → loads (0x54 + i))

/-- R38, R54: a load from a register or byte that holds no value is a fault of the host program, never a zero; so is a 32-bit load of a word of a
byte array in which some byte holds none. (That the lowest such byte is the one reported, and that this comes before RSP_VALID, is the model's
choice, log entry 7.) -/
def Obligations.ValuelessLoadsFault : Prop :=
  ∀ (s : State) (rest : List HostAction),
    let faults (w : Width) (off place : Nat) := s.host = .read 0 w off :: rest → step s = .fault (.valuelessRead place)
    let firstOfWord (m : Memory) (q k : Nat) :=
      4 * q ≤ k ∧ k < 4 * q + 4 ∧ Memory.read m k = none ∧ ∀ j, 4 * q ≤ j → j < k → (Memory.read m j).isSome = true
    (s.reqHdr = none → faults .b32 0x00 0x00) ∧ (s.rspHdr = none → faults .b32 0x08 0x08) ∧ (s.rspErr = none → faults .b32 0x0C 0x0C) ∧
    (s.olen = none → faults .b32 0x40 0x40) ∧ (s.crcRes = none → faults .b32 0x44 0x44) ∧ (s.desc = none → faults .b32 0x48 0x48) ∧
    (s.msgHdr = none → faults .b32 0x4C 0x4C) ∧ (s.msgCrc = none → faults .b32 0x50 0x50) ∧ (s.ackRes = none → faults .b32 0x60 0x60) ∧
    (s.sensRes = none → faults .b32 0x64 0x64) ∧
    (∀ i, i < 31 → Memory.read s.reqBuf i = none → faults .b8 (0x10 + i) (0x10 + i)) ∧
    (∀ i, i < 16 → Memory.read s.obuf i = none → faults .b8 (0x30 + i) (0x30 + i)) ∧
    (∀ i, i < 11 → Memory.read s.mData i = none → faults .b8 (0x54 + i) (0x54 + i)) ∧
    (∀ q k, q < 8 → k < 31 → firstOfWord s.reqBuf q k → faults .b32 (0x10 + 4 * q) (0x10 + k)) ∧
    (∀ q k, q < 4 → firstOfWord s.obuf q k → faults .b32 (0x30 + 4 * q) (0x30 + k)) ∧
    (∀ q k, q < 3 → k < 11 → firstOfWord s.mData q k → faults .b32 (0x54 + 4 * q) (0x54 + k))

/-- R42: a load from a reserved place gives 0, in every state. -/
def Obligations.ReservedPlacesReadZero : Prop :=
  ∀ p ∈ ([(.b8, 0x2F), (.b8, 0x5F), (.b32, 0x68), (.b32, 0x6C)] : List (Width × Nat)), ∀ (s : State) (rest : List HostAction),
    s.host = .read 0 p.1 p.2 :: rest → step s = .next { s with host := rest, reads := ⟨p.1, p.2, 0#32⟩ :: s.reads }

/-- R42: a store to a read-only or constant register, or to a reserved place, has no effect, in every state. -/
def Obligations.ReadOnlyStoresHaveNoEffect : Prop :=
  ∀ (s : State) (data : BitVec 64) (rest : List HostAction) (off : Nat),
    (off ∈ ([0x04, 0x08, 0x0C, 0x30, 0x34, 0x38, 0x3C, 0x40, 0x44, 0x48, 0x4C, 0x50, 0x54, 0x58, 0x5C, 0x60, 0x64, 0x68, 0x6C, 0x70, 0x74,
             0x78, 0x7C] : List Nat) →
      s.host = .write 0 .b32 off data :: rest → step s = .next { s with host := rest }) ∧
    (0x2F ≤ off ∧ off ≤ 0x3F ∨ 0x54 ≤ off ∧ off ≤ 0x5F → s.host = .write 0 .b8 off data :: rest → step s = .next { s with host := rest })

/-- R54: exactly the accesses R54 does not allow are refused as illegal: 16- and 64-bit ones, 32-bit ones not at a multiple of 4, 8-bit ones
outside the byte arrays, and all at or above 0x80. (That this is what is reported also of a store while BUSY = 1, and of a load where a register
holds no value, is the model's choice, log entry 19; the reserved bytes 0x2F and 0x5F are by log entry 14.) -/
def Obligations.IllegalAccessesRefused : Prop :=
  ∀ (s : State) (w : Width) (off : Nat) (data : BitVec 64) (rest : List HostAction),
    let illegal := w = .b16 ∨ w = .b64 ∨ 0x80 ≤ off ∨ (w = .b32 ∧ off % 4 ≠ 0) ∨
      (w = .b8 ∧ ¬(0x10 ≤ off ∧ off ≤ 0x3F) ∧ ¬(0x54 ≤ off ∧ off ≤ 0x5F))
    (s.host = .read 0 w off :: rest → (step s = .refused (.illegalAccess off) ↔ illegal)) ∧
    (s.host = .write 0 w off data :: rest → (step s = .refused (.illegalAccess off) ↔ illegal))

/-- R25: an 8-bit store to REQ_BUF[i] while BUSY = 0 leaves that byte there, every other byte and every other register as it was. -/
def Obligations.BufferByteStore : Prop :=
  ∀ (s : State) (i : Nat) (data : BitVec 64) (rest : List HostAction), i < 31 → s.busy = false →
    s.host = .write 0 .b8 (0x10 + i) data :: rest →
    ∃ t, step s = .next t ∧ (∀ j, Memory.read t.reqBuf j = if j = i then some (data.extractLsb' 0 8) else Memory.read s.reqBuf j) ∧
      t = { s with host := rest, reqBuf := t.reqBuf }

/-- R51, R54: a 32-bit store to REQ_BUF puts bits 7:0 at the lowest offset, leaves the reserved byte 0x2F alone, and changes nothing else; a
32-bit load of four bytes of REQ_BUF, or while RSP_VALID = 1 of OBUF or M_DATA, that hold values gives the word with the byte at the lowest offset
in bits 7:0, the reserved bytes 0x2F and 0x5F reading 0, and changes nothing but the record. -/
def Obligations.BufferWordAccess : Prop :=
  ∀ (s : State) (q : Nat) (data : BitVec 64) (rest : List HostAction),
    (q < 8 → s.busy = false → s.host = .write 0 .b32 (0x10 + 4 * q) data :: rest →
      ∃ t, step s = .next t ∧ t = { s with host := rest, reqBuf := t.reqBuf } ∧
        ∀ j, Memory.read t.reqBuf j =
          if 4 * q ≤ j ∧ j < 4 * q + 4 ∧ j < 31 then some (data.extractLsb' (8 * (j - 4 * q)) 8) else Memory.read s.reqBuf j) ∧
    ∀ b0 b1 b2 b3 : Byte,
      let holds (m : Memory) (reserved : Bool) := Memory.read m (4 * q) = some b0 ∧ Memory.read m (4 * q + 1) = some b1 ∧
        Memory.read m (4 * q + 2) = some b2 ∧ if reserved then b3 = 0#8 else Memory.read m (4 * q + 3) = some b3
      let loads (off : Nat) := s.host = .read 0 .b32 off :: rest →
        step s = .next { s with host := rest, reads := ⟨.b32, off, b3 ++ b2 ++ b1 ++ b0⟩ :: s.reads }
      (q < 8 → holds s.reqBuf (q == 7) → loads (0x10 + 4 * q)) ∧
      (q < 4 → s.rspValid = true → holds s.obuf false → loads (0x30 + 4 * q)) ∧
      (q < 3 → s.rspValid = true → holds s.mData (q == 2) → loads (0x54 + 4 * q))

/-- R55: a load changes nothing but the host's own record, and a second load of the same place gives the same value. -/
def Obligations.LoadsAreIdempotent : Prop :=
  ∀ (s t : State) (w : Width) (off : Nat) (rest : List HostAction), s.host = .read 0 w off :: .read 0 w off :: rest → step s = .next t →
    ∃ v, t = { s with host := .read 0 w off :: rest, reads := ⟨w, off, v⟩ :: s.reads } ∧
      step t = .next { s with host := rest, reads := ⟨w, off, v⟩ :: ⟨w, off, v⟩ :: s.reads }

/-- R35: the timing constants read 7, 4000, 10000 and 1000000 in every state. -/
def Obligations.TimingConstants : Prop :=
  ∀ p ∈ ([(0x70, 7#32), (0x74, 4000#32), (0x78, 10000#32), (0x7C, 1000000#32)] : List (Nat × Word)), ∀ (s : State) (rest : List HostAction),
    s.host = .read 0 .b32 p.1 :: rest → step s = .next { s with host := rest, reads := ⟨.b32, p.1, p.2⟩ :: s.reads }

/-- R26: CTRL_STAT reads BUSY in bit 0, RSP_VALID in bit 1, and 0 in bits 31:2. -/
def Obligations.ControlStatusLoad : Prop :=
  ∀ (s : State) (rest : List HostAction), s.host = .read 0 .b32 0x04 :: rest →
    step s = .next { s with host := rest, reads := ⟨.b32, 0x04, BitVec.ofNat 32 ((if s.busy then 1 else 0) + (if s.rspValid then 2 else 0))⟩ :: s.reads }

/-- R255: while BUSY = 1 a store to REQ_HDR or to REQ_BUF is refused. -/
def Obligations.RequestStoresWhileBusyRefused : Prop :=
  ∀ (s : State) (data : BitVec 64) (rest : List HostAction) (i : Nat), s.busy = true →
    (s.host = .write 0 .b32 0x00 data :: rest → step s = .refused .writeWhileBusy) ∧
    (i < 31 → s.host = .write 0 .b8 (0x10 + i) data :: rest → step s = .refused .writeWhileBusy) ∧
    (i < 8 → s.host = .write 0 .b32 (0x10 + 4 * i) data :: rest → step s = .refused .writeWhileBusy)

/-- The model's choice of log entry 7, between R255 with D27 and R42: while RSP_VALID = 0, also with BUSY = 0, a load of a response register that
holds a value is refused. (No run reaches such a state: before the first response none holds a value, State.Inv.quiet.) -/
def Obligations.ResponseLoadsBeforeValidRefused : Prop :=
  ∀ (s : State) (v : Word) (b : Byte) (i : Nat) (rest : List HostAction), s.rspValid = false →
    let refuses (w : Width) (off : Nat) := s.host = .read 0 w off :: rest → step s = .refused (.responseNotValid off)
    (s.rspHdr = some v → refuses .b32 0x08) ∧ (s.rspErr = some v → refuses .b32 0x0C) ∧ (s.olen = some v → refuses .b32 0x40) ∧
    (s.crcRes = some v → refuses .b32 0x44) ∧ (s.desc = some v → refuses .b32 0x48) ∧ (s.msgHdr = some v → refuses .b32 0x4C) ∧
    (s.msgCrc = some v → refuses .b32 0x50) ∧ (s.ackRes = some v → refuses .b32 0x60) ∧ (s.sensRes = some v → refuses .b32 0x64) ∧
    (i < 16 → Memory.read s.obuf i = some b → refuses .b8 (0x30 + i)) ∧
    (i < 11 → Memory.read s.mData i = some b → refuses .b8 (0x54 + i))

/-- R58: an access by a second host is refused. (That this is what is reported, whatever else would stop the access, is the model's choice, log
entry 19.) -/
def Obligations.SecondHostRefused : Prop :=
  ∀ (s : State) (who : Nat) (w : Width) (off : Nat) (data : BitVec 64) (rest : List HostAction), who ≠ 0 →
    (s.host = .read who w off :: rest → step s = .refused (.secondHost who)) ∧
    (s.host = .write who w off data :: rest → step s = .refused (.secondHost who))

/-! ## The end of a run -/

/-- R260: before the first response a run has not ended; the step that answers the host's last request ends it, and its observation is the
response registers then and the values the host has read after each earlier operation: of what it read before each request so far, all but
what it read before the first. With another request still to come the run has not ended. (The form of the observation is the model's, log
entry 18.) -/
def Obligations.RunEndsWithLastResponse : Prop :=
  (∀ s : State, s.rspValid = false → s.runEnded = false) ∧
  ∀ (s t : State) (a : HostAction) (rest : List HostAction), s.host = a :: rest → a.startsRequest = true → step s = .next t →
    ((∃ b ∈ rest, b.startsRequest = true) → s.runEnded = false ∧ t.runEnded = false) ∧
    ((∀ b ∈ rest, b.startsRequest = false) → s.runEnded = false ∧ t.runEnded = true ∧
      ∀ n, runObservation (n + 1) s = some
        ⟨t.rspHdr, t.rspErr, t.obuf, t.olen, t.crcRes, t.desc, t.msgHdr, t.msgCrc, t.mData, t.ackRes, t.sensRes,
          (s.reads :: s.earlierReads).dropLast⟩)

/-! ## The invariant -/

/-- The state after reset meets the invariant. -/
def Obligations.ResetMeetsInvariant : Prop := State.reset.Inv

/-- Every step keeps the invariant: BUSY is 0 (R26), the byte arrays keep their form and size (R25, R29, R32), no response register holds a value
before the first response (R38), after one exactly the group of the request's operation or none holds a value (R39), and reserved bits read
0 (R27, R30 to R34). -/
def Obligations.StepKeepsInvariant : Prop :=
  ∀ s t : State, s.Inv → step s = .next t → t.Inv

/-! ## The assembler -/

/-- R83: the header word of a line is (F << 24) | (A << 16) | (LEN << 8) | OP, unused fields 0, and a list longer than 31 bytes does not
assemble; `.word w` is w as given, with no buffer bytes. -/
def Obligations.AssembledHeaders : Prop :=
  ∀ (a f : Byte) (w : Word) (d : List Byte),
    let request (f a : Byte) (op : Word) (d : List Byte) : Option Request :=
      if d.length ≤ 31 then some ⟨f.setWidth 32 <<< 24 ||| a.setWidth 32 <<< 16 ||| BitVec.ofNat 32 d.length <<< 8 ||| op, d⟩ else none
    (AsmLine.crc d).assemble = request 0#8 0#8 1#32 d ∧ (AsmLine.validate a).assemble = request 0#8 a 2#32 [] ∧
    (AsmLine.lookup f).assemble = request f 0#8 3#32 [] ∧ (AsmLine.encode a f d).assemble = request f a 4#32 d ∧
    (AsmLine.decode a f d).assemble = request f a 5#32 d ∧ (AsmLine.cack a).assemble = request 0#8 a 6#32 [] ∧
    (AsmLine.csens f d).assemble = request f 0#8 7#32 d ∧ (AsmLine.word w).assemble = some ⟨w, []⟩

/-- R83, R252: the host's accesses for a request of at most 31 bytes run, one step each, to exec of the request's header, with the bytes in
REQ_BUF[0..] and the word in REQ_HDR. -/
def Obligations.AssembledRequestRuns : Prop :=
  ∀ (s : State) (r : Request) (rest : List HostAction), r.bytes.length ≤ 31 → s.busy = false → s.host = r.actions ++ rest →
    ∃ m, (∀ i, Memory.read m i = if i < r.bytes.length then r.bytes[i]? else Memory.read s.reqBuf i) ∧
      Sys2Proof.core.run (r.bytes.length + 1) s =
        exec (decodeHeader r.hdr) { s.underWay rest r.hdr with reqBuf := m }

/-- R83: lines of text parse to the requests they are written for: case does not matter in a mnemonic, `;` starts a comment, numbers are
hexadecimal or decimal, and a line longer than its form, or a byte above 255, does not assemble (log entry 13). -/
def Obligations.SampleLinesParse : Prop :=
  parseLine ['C', 'r', 'c', ' ', '[', '0', 'x', '1', '5', ',', ' ', '6', '5', ']', ' ', ';', ' ', '!'] = some (some (.crc [0x15#8, 65#8])) ∧
  parseLine ['g', 'o', ' ', '0', 'x', '1', '5'] = some (some (.go 0x15#8)) ∧
  parseLine ['.', 'w', 'o', 'r', 'd', ' ', '0', 'x', 'F', '0', '0', '0', '0', '0', '1', '1'] = some (some (.word 0xF0000011#32)) ∧
  parseLine ['c', 's', 'e', 'n', 's', ' ', '6', '9', ',', '[', ']'] = some (some (.csens 0x45#8 [])) ∧
  parseLine [';', ' ', 'g', 'o'] = some none ∧
  parseLine ['g', 'o', ' ', '2', '5', '6'] = none ∧
  parseLine ['g', 'o', ' ', '1', ',', ' ', '2'] = none
end

