-- ==== Sys2Proof/Laws/Bits.lean ====
section
/-! SUPPORT. The fields of every packed word read back as they were put in (spec/10_state.md R24 to R34; spec/30_encoding.md R70), and a
word is put together again from its fields. -/

namespace Sys2Proof

open Machine

theorem extractLsb'_append_hi {n m k : Nat} (s : Nat) (x : BitVec n) (y : BitVec m) (h : m ≤ s) :
    (x ++ y).extractLsb' s k = x.extractLsb' (s - m) k := by
  ext i hi
  simp only [BitVec.getElem_extractLsb', BitVec.getLsbD_append, show ¬ s + i < m by omega, if_false, show s + i - m = s - m + i by omega]

theorem extractLsb'_append_lo {n m k : Nat} (s : Nat) (x : BitVec n) (y : BitVec m) (h : s + k ≤ m) :
    (x ++ y).extractLsb' s k = y.extractLsb' s k := by
  ext i hi
  simp only [BitVec.getElem_extractLsb', BitVec.getLsbD_append, show s + i < m by omega, if_true]

theorem extractLsb'_full {n : Nat} (x : BitVec n) : x.extractLsb' 0 n = x := by
  ext i hi; simp

@[simp] theorem opField_headerOfFields (f a : Byte) (rsv1 : BitVec 3) (len : BitVec 5) (rsv0 op : BitVec 4) : opField (headerOfFields f a rsv1 len rsv0 op) = op := by
  unfold opField headerOfFields
  rw [extractLsb'_append_lo _ _ _ (by decide)]
  exact extractLsb'_full _

@[simp] theorem rsv0Field_headerOfFields (f a : Byte) (rsv1 : BitVec 3) (len : BitVec 5) (rsv0 op : BitVec 4) : rsv0Field (headerOfFields f a rsv1 len rsv0 op) = rsv0 := by
  unfold rsv0Field headerOfFields
  rw [extractLsb'_append_hi _ _ _ (by decide), extractLsb'_append_lo _ _ _ (by decide)]
  exact extractLsb'_full _

@[simp] theorem lenField_headerOfFields (f a : Byte) (rsv1 : BitVec 3) (len : BitVec 5) (rsv0 op : BitVec 4) : lenField (headerOfFields f a rsv1 len rsv0 op) = len := by
  unfold lenField headerOfFields
  rw [extractLsb'_append_hi _ _ _ (by decide), extractLsb'_append_hi _ _ _ (by decide), extractLsb'_append_lo _ _ _ (by decide)]
  exact extractLsb'_full _

@[simp] theorem rsv1Field_headerOfFields (f a : Byte) (rsv1 : BitVec 3) (len : BitVec 5) (rsv0 op : BitVec 4) : rsv1Field (headerOfFields f a rsv1 len rsv0 op) = rsv1 := by
  unfold rsv1Field headerOfFields
  rw [extractLsb'_append_hi _ _ _ (by decide), extractLsb'_append_hi _ _ _ (by decide), extractLsb'_append_hi _ _ _ (by decide), extractLsb'_append_lo _ _ _ (by decide)]
  exact extractLsb'_full _

@[simp] theorem aField_headerOfFields (f a : Byte) (rsv1 : BitVec 3) (len : BitVec 5) (rsv0 op : BitVec 4) : aField (headerOfFields f a rsv1 len rsv0 op) = a := by
  unfold aField headerOfFields
  rw [extractLsb'_append_hi _ _ _ (by decide), extractLsb'_append_hi _ _ _ (by decide), extractLsb'_append_hi _ _ _ (by decide), extractLsb'_append_hi _ _ _ (by decide), extractLsb'_append_lo _ _ _ (by decide)]
  exact extractLsb'_full _

@[simp] theorem fField_headerOfFields (f a : Byte) (rsv1 : BitVec 3) (len : BitVec 5) (rsv0 op : BitVec 4) : fField (headerOfFields f a rsv1 len rsv0 op) = f := by
  unfold fField headerOfFields
  rw [extractLsb'_append_hi _ _ _ (by decide), extractLsb'_append_hi _ _ _ (by decide), extractLsb'_append_hi _ _ _ (by decide), extractLsb'_append_hi _ _ _ (by decide), extractLsb'_append_hi _ _ _ (by decide)]
  exact extractLsb'_full _

@[simp] theorem statusField_rspHdrWord (op : BitVec 4) (retry : Bool) (st : Status) : statusField (rspHdrWord op retry st) = st.code := by
  unfold statusField rspHdrWord
  rw [extractLsb'_append_lo _ _ _ (by decide)]
  exact extractLsb'_full _

@[simp] theorem resOpField_rspHdrWord (op : BitVec 4) (retry : Bool) (st : Status) : resOpField (rspHdrWord op retry st) = op := by
  unfold resOpField rspHdrWord
  rw [extractLsb'_append_hi _ _ _ (by decide), extractLsb'_append_hi _ _ _ (by decide), extractLsb'_append_hi _ _ _ (by decide), extractLsb'_append_lo _ _ _ (by decide)]
  exact extractLsb'_full _

@[simp] theorem rspHdrWord_reserved_low (op : BitVec 4) (retry : Bool) (st : Status) : (rspHdrWord op retry st).extractLsb' 5 3 = 0#3 := by
  unfold rspHdrWord
  rw [extractLsb'_append_hi _ _ _ (by decide), extractLsb'_append_hi _ _ _ (by decide), extractLsb'_append_lo _ _ _ (by decide)]
  exact extractLsb'_full _

@[simp] theorem rspHdrWord_reserved_high (op : BitVec 4) (retry : Bool) (st : Status) : (rspHdrWord op retry st).extractLsb' 12 20 = 0#20 := by
  unfold rspHdrWord
  rw [extractLsb'_append_hi _ _ _ (by decide), extractLsb'_append_hi _ _ _ (by decide), extractLsb'_append_hi _ _ _ (by decide), extractLsb'_append_hi _ _ _ (by decide)]
  exact extractLsb'_full _

@[simp] theorem rspHdrWord_retry (op : BitVec 4) (retry : Bool) (st : Status) : (rspHdrWord op retry st).extractLsb' 4 1 = BitVec.ofBool retry := by
  unfold rspHdrWord
  rw [extractLsb'_append_hi _ _ _ (by decide), extractLsb'_append_lo _ _ _ (by decide)]
  exact extractLsb'_full _

@[simp] theorem lookupWord_base (r : LookupAnswer) : r.word.extractLsb' 0 7 = r.base := by
  unfold LookupAnswer.word
  rw [extractLsb'_append_lo _ _ _ (by decide)]
  exact extractLsb'_full _

@[simp] theorem lookupWord_kind (r : LookupAnswer) : r.word.extractLsb' 7 1 = BitVec.ofBool r.kind := by
  unfold LookupAnswer.word
  rw [extractLsb'_append_hi _ _ _ (by decide), extractLsb'_append_lo _ _ _ (by decide)]
  exact extractLsb'_full _

@[simp] theorem lookupWord_name (r : LookupAnswer) : r.word.extractLsb' 8 4 = r.desc.nameId := by
  unfold LookupAnswer.word
  rw [extractLsb'_append_hi _ _ _ (by decide), extractLsb'_append_hi _ _ _ (by decide), extractLsb'_append_lo _ _ _ (by decide)]
  exact extractLsb'_full _

@[simp] theorem lookupWord_cmdKind (r : LookupAnswer) : r.word.extractLsb' 12 2 = r.desc.cmd.kind := by
  unfold LookupAnswer.word
  rw [extractLsb'_append_hi _ _ _ (by decide), extractLsb'_append_hi _ _ _ (by decide), extractLsb'_append_hi _ _ _ (by decide), extractLsb'_append_lo _ _ _ (by decide)]
  exact extractLsb'_full _

@[simp] theorem lookupWord_cmdLen (r : LookupAnswer) : r.word.extractLsb' 14 5 = r.desc.cmd.len := by
  unfold LookupAnswer.word
  rw [extractLsb'_append_hi _ _ _ (by decide), extractLsb'_append_hi _ _ _ (by decide), extractLsb'_append_hi _ _ _ (by decide), extractLsb'_append_hi _ _ _ (by decide), extractLsb'_append_lo _ _ _ (by decide)]
  exact extractLsb'_full _

@[simp] theorem lookupWord_rplKind (r : LookupAnswer) : r.word.extractLsb' 19 2 = r.desc.rpl.kind := by
  unfold LookupAnswer.word
  rw [extractLsb'_append_hi _ _ _ (by decide), extractLsb'_append_hi _ _ _ (by decide), extractLsb'_append_hi _ _ _ (by decide), extractLsb'_append_hi _ _ _ (by decide), extractLsb'_append_hi _ _ _ (by decide), extractLsb'_append_lo _ _ _ (by decide)]
  exact extractLsb'_full _

@[simp] theorem lookupWord_rplLen (r : LookupAnswer) : r.word.extractLsb' 21 5 = r.desc.rpl.len := by
  unfold LookupAnswer.word
  rw [extractLsb'_append_hi _ _ _ (by decide), extractLsb'_append_hi _ _ _ (by decide), extractLsb'_append_hi _ _ _ (by decide), extractLsb'_append_hi _ _ _ (by decide), extractLsb'_append_hi _ _ _ (by decide), extractLsb'_append_hi _ _ _ (by decide), extractLsb'_append_lo _ _ _ (by decide)]
  exact extractLsb'_full _

@[simp] theorem lookupWord_reserved (r : LookupAnswer) : r.word.extractLsb' 26 6 = 0#6 := by
  unfold LookupAnswer.word
  rw [extractLsb'_append_hi _ _ _ (by decide), extractLsb'_append_hi _ _ _ (by decide), extractLsb'_append_hi _ _ _ (by decide), extractLsb'_append_hi _ _ _ (by decide), extractLsb'_append_hi _ _ _ (by decide), extractLsb'_append_hi _ _ _ (by decide), extractLsb'_append_hi _ _ _ (by decide)]
  exact extractLsb'_full _

@[simp] theorem msgHdr_addr (m : Message) : m.hdrWord.extractLsb' 0 8 = m.addr := by
  unfold Message.hdrWord
  rw [extractLsb'_append_lo _ _ _ (by decide)]
  exact extractLsb'_full _

@[simp] theorem msgHdr_func (m : Message) : m.hdrWord.extractLsb' 8 7 = m.func := by
  unfold Message.hdrWord
  rw [extractLsb'_append_hi _ _ _ (by decide), extractLsb'_append_lo _ _ _ (by decide)]
  exact extractLsb'_full _

@[simp] theorem msgHdr_err (m : Message) : m.hdrWord.extractLsb' 15 1 = BitVec.ofBool m.err := by
  unfold Message.hdrWord
  rw [extractLsb'_append_hi _ _ _ (by decide), extractLsb'_append_hi _ _ _ (by decide), extractLsb'_append_lo _ _ _ (by decide)]
  exact extractLsb'_full _

@[simp] theorem msgHdr_ack (m : Message) : m.hdrWord.extractLsb' 16 8 = m.ack := by
  unfold Message.hdrWord
  rw [extractLsb'_append_hi _ _ _ (by decide), extractLsb'_append_hi _ _ _ (by decide), extractLsb'_append_hi _ _ _ (by decide), extractLsb'_append_lo _ _ _ (by decide)]
  exact extractLsb'_full _

@[simp] theorem msgHdr_dlen (m : Message) : m.hdrWord.extractLsb' 24 4 = BitVec.ofNat 4 m.data.length := by
  unfold Message.hdrWord
  rw [extractLsb'_append_hi _ _ _ (by decide), extractLsb'_append_hi _ _ _ (by decide), extractLsb'_append_hi _ _ _ (by decide), extractLsb'_append_hi _ _ _ (by decide), extractLsb'_append_lo _ _ _ (by decide)]
  exact extractLsb'_full _

@[simp] theorem msgHdr_reserved (m : Message) : m.hdrWord.extractLsb' 28 4 = 0#4 := by
  unfold Message.hdrWord
  rw [extractLsb'_append_hi _ _ _ (by decide), extractLsb'_append_hi _ _ _ (by decide), extractLsb'_append_hi _ _ _ (by decide), extractLsb'_append_hi _ _ _ (by decide), extractLsb'_append_hi _ _ _ (by decide)]
  exact extractLsb'_full _

@[simp] theorem msgCrc_lo (m : Message) : m.crcWord.extractLsb' 0 8 = m.crcLo := by
  unfold Message.crcWord
  rw [extractLsb'_append_lo _ _ _ (by decide)]
  exact extractLsb'_full _

@[simp] theorem msgCrc_hi (m : Message) : m.crcWord.extractLsb' 8 8 = m.crcHi := by
  unfold Message.crcWord
  rw [extractLsb'_append_hi _ _ _ (by decide), extractLsb'_append_lo _ _ _ (by decide)]
  exact extractLsb'_full _

@[simp] theorem msgCrc_reserved (m : Message) : m.crcWord.extractLsb' 16 16 = 0#16 := by
  unfold Message.crcWord
  rw [extractLsb'_append_hi _ _ _ (by decide), extractLsb'_append_hi _ _ _ (by decide)]
  exact extractLsb'_full _

@[simp] theorem ackResWord_class (c : AckClass) (code : Byte) : (ackResWord c code).extractLsb' 0 2 = c.code := by
  unfold ackResWord
  rw [extractLsb'_append_lo _ _ _ (by decide)]
  exact extractLsb'_full _

@[simp] theorem ackResWord_reserved_low (c : AckClass) (code : Byte) : (ackResWord c code).extractLsb' 2 6 = 0#6 := by
  unfold ackResWord
  rw [extractLsb'_append_hi _ _ _ (by decide), extractLsb'_append_lo _ _ _ (by decide)]
  exact extractLsb'_full _

@[simp] theorem ackResWord_code (c : AckClass) (code : Byte) : (ackResWord c code).extractLsb' 8 8 = code := by
  unfold ackResWord
  rw [extractLsb'_append_hi _ _ _ (by decide), extractLsb'_append_hi _ _ _ (by decide), extractLsb'_append_lo _ _ _ (by decide)]
  exact extractLsb'_full _

@[simp] theorem ackResWord_reserved_high (c : AckClass) (code : Byte) : (ackResWord c code).extractLsb' 16 16 = 0#16 := by
  unfold ackResWord
  rw [extractLsb'_append_hi _ _ _ (by decide), extractLsb'_append_hi _ _ _ (by decide), extractLsb'_append_hi _ _ _ (by decide)]
  exact extractLsb'_full _

@[simp] theorem sensResWord_class (c : SensorClass) (code : Byte) : (sensResWord c code).extractLsb' 0 2 = c.code := by
  unfold sensResWord
  rw [extractLsb'_append_lo _ _ _ (by decide)]
  exact extractLsb'_full _

@[simp] theorem sensResWord_reserved_low (c : SensorClass) (code : Byte) : (sensResWord c code).extractLsb' 2 6 = 0#6 := by
  unfold sensResWord
  rw [extractLsb'_append_hi _ _ _ (by decide), extractLsb'_append_lo _ _ _ (by decide)]
  exact extractLsb'_full _

@[simp] theorem sensResWord_code (c : SensorClass) (code : Byte) : (sensResWord c code).extractLsb' 8 8 = code := by
  unfold sensResWord
  rw [extractLsb'_append_hi _ _ _ (by decide), extractLsb'_append_hi _ _ _ (by decide), extractLsb'_append_lo _ _ _ (by decide)]
  exact extractLsb'_full _

@[simp] theorem sensResWord_reserved_high (c : SensorClass) (code : Byte) : (sensResWord c code).extractLsb' 16 16 = 0#16 := by
  unfold sensResWord
  rw [extractLsb'_append_hi _ _ _ (by decide), extractLsb'_append_hi _ _ _ (by decide), extractLsb'_append_hi _ _ _ (by decide)]
  exact extractLsb'_full _

@[simp] theorem wordOfBytes_byte0 (b0 b1 b2 b3 : Byte) : (wordOfBytes b0 b1 b2 b3).extractLsb' 0 8 = b0 := by
  unfold wordOfBytes
  rw [extractLsb'_append_lo _ _ _ (by decide)]
  exact extractLsb'_full _

@[simp] theorem wordOfBytes_byte1 (b0 b1 b2 b3 : Byte) : (wordOfBytes b0 b1 b2 b3).extractLsb' 8 8 = b1 := by
  unfold wordOfBytes
  rw [extractLsb'_append_hi _ _ _ (by decide), extractLsb'_append_lo _ _ _ (by decide)]
  exact extractLsb'_full _

@[simp] theorem wordOfBytes_byte2 (b0 b1 b2 b3 : Byte) : (wordOfBytes b0 b1 b2 b3).extractLsb' 16 8 = b2 := by
  unfold wordOfBytes
  rw [extractLsb'_append_hi _ _ _ (by decide), extractLsb'_append_hi _ _ _ (by decide), extractLsb'_append_lo _ _ _ (by decide)]
  exact extractLsb'_full _

@[simp] theorem wordOfBytes_byte3 (b0 b1 b2 b3 : Byte) : (wordOfBytes b0 b1 b2 b3).extractLsb' 24 8 = b3 := by
  unfold wordOfBytes
  rw [extractLsb'_append_hi _ _ _ (by decide), extractLsb'_append_hi _ _ _ (by decide), extractLsb'_append_hi _ _ _ (by decide)]
  exact extractLsb'_full _

/-- A header word is its six fields (R70). -/
@[simp] theorem headerOfFields_fields (w : Word) :
    headerOfFields (fField w) (aField w) (rsv1Field w) (lenField w) (rsv0Field w) (opField w) = w := by
  unfold headerOfFields fField aField rsv1Field lenField rsv0Field opField
  repeat rw [BitVec.extractLsb'_append_extractLsb'_eq_extractLsb' (by decide)]
  exact extractLsb'_full w

/-- A word is its four bytes, little-endian (spec/20_memory.md R51). -/
@[simp] theorem wordOfBytes_bytes (w : Word) :
    wordOfBytes (w.extractLsb' 0 8) (w.extractLsb' 8 8) (w.extractLsb' 16 8) (w.extractLsb' 24 8) = w := by
  unfold wordOfBytes
  repeat rw [BitVec.extractLsb'_append_extractLsb'_eq_extractLsb' (by decide)]
  exact extractLsb'_full w

/-- A zero-extended 16-bit value has a zero upper half. -/
@[simp] theorem setWidth32_reserved (c : Half) : (c.setWidth 32).extractLsb' 16 16 = 0#16 := by
  ext i hi; simp

end Sys2Proof
end

