-- ==== Sys2Proof/Laws/Memory.lean ====
section
/-! SUPPORT. The laws of the byte arrays: read after write, the canonical form is kept, and what a run of bytes does. -/

namespace Sys2Proof.Machine

@[simp] theorem Memory.read_nil (a : Nat) : Memory.read [] a = none := rfl

theorem Memory.read_cons (k : Nat) (v : Byte) (m : Memory) (a : Nat) :
    Memory.read ((k, v) :: m) a = if a = k then some v else Memory.read m a := rfl

/-- A read after a write: the byte written there, the old byte elsewhere. -/
theorem Memory.read_write (m : Memory) (a : Nat) (b : Byte) (x : Nat) :
    Memory.read (Memory.write m a b) x = if x = a then some b else Memory.read m x := by
  induction m with
  | nil => simp [Memory.write, Memory.read_cons]
  | cons c m ih =>
    obtain ⟨k, v⟩ := c
    unfold Memory.write
    split
    · simp [Memory.read_cons]
    · split
      · subst a; by_cases h : x = k <;> simp [Memory.read_cons, h]
      · rw [Memory.read_cons, ih, Memory.read_cons]
        by_cases h : x = k
        · subst h; rw [if_pos rfl, if_neg (by omega), if_pos rfl]
        · simp [h]

@[simp] theorem Memory.read_write_same (m : Memory) (a : Nat) (b : Byte) : Memory.read (Memory.write m a b) a = some b := by
  simp [Memory.read_write]

theorem Memory.read_write_other (m : Memory) {a x : Nat} (b : Byte) (h : x ≠ a) : Memory.read (Memory.write m a b) x = Memory.read m x := by
  simp [Memory.read_write, h]

/-- The cells of a written memory are the new one and old ones. -/
theorem Memory.mem_write {m : Memory} {a : Nat} {b : Byte} {c : Host.Cell} (h : c ∈ Memory.write m a b) : c = (a, b) ∨ c ∈ m := by
  induction m with
  | nil => simpa [Memory.write] using h
  | cons k m ih =>
    obtain ⟨k, v⟩ := k
    unfold Memory.write at h
    split at h
    · simpa using h
    · split at h
      · rcases List.mem_cons.mp h with h | h
        · exact .inl h
        · exact .inr (List.mem_cons_of_mem _ h)
      · rcases List.mem_cons.mp h with h | h
        · exact .inr (h ▸ List.mem_cons_self)
        · exact (ih h).imp_right (List.mem_cons_of_mem _)

/-- A write keeps the canonical form. -/
theorem Memory.write_wf {m : Memory} (h : Memory.wf m) (a : Nat) (b : Byte) : Memory.wf (Memory.write m a b) := by
  induction m with
  | nil => simp [Memory.wf, Memory.write]
  | cons c m ih =>
    obtain ⟨k, v⟩ := c
    obtain ⟨hk, hm⟩ := List.pairwise_cons.mp h
    unfold Memory.write
    split
    · next hlt =>
      refine List.pairwise_cons.mpr ⟨fun d hd => ?_, h⟩
      rcases List.mem_cons.mp hd with rfl | hd
      · exact hlt
      · exact Nat.lt_trans hlt (hk d hd)
    · split
      · next heq => subst heq; exact List.pairwise_cons.mpr ⟨hk, hm⟩
      · next hlt hne =>
        refine List.pairwise_cons.mpr ⟨fun d hd => ?_, ih hm⟩
        rcases Memory.mem_write hd with rfl | hd
        · show k < a; omega
        · exact hk d hd

theorem Memory.write_below {m : Memory} {n a : Nat} (h : Memory.below n m) (ha : a < n) (b : Byte) : Memory.below n (Memory.write m a b) := by
  intro c hc
  rcases Memory.mem_write hc with rfl | hc
  · exact ha
  · exact h c hc

/-- A run of bytes written: each in its place, the rest unchanged. -/
theorem Memory.read_writeBytes (bs : List Byte) (m : Memory) (a x : Nat) :
    Memory.read (Memory.writeBytes m a bs) x = if a ≤ x ∧ x < a + bs.length then bs[x - a]? else Memory.read m x := by
  induction bs generalizing m a with
  | nil => simp [Memory.writeBytes, show ¬(a ≤ x ∧ x < a) by omega]
  | cons b bs ih =>
    rw [Memory.writeBytes, ih, Memory.read_write]
    simp only [List.length_cons]
    by_cases h1 : x = a
    · subst h1
      rw [if_neg (by omega), if_pos rfl, if_pos (by omega)]
      simp
    · by_cases h2 : a + 1 ≤ x ∧ x < a + 1 + bs.length
      · rw [if_pos h2, if_pos (by omega), show x - a = (x - (a + 1)) + 1 by omega, List.getElem?_cons_succ]
      · rw [if_neg h2, if_neg h1, if_neg (by omega)]

/-- Bytes written to an array that holds none: exactly they are there. -/
theorem Memory.read_writeBytes_nil (bs : List Byte) (x : Nat) : Memory.read (Memory.writeBytes [] 0 bs) x = bs[x]? := by
  rw [Memory.read_writeBytes]
  split
  · simp
  · rw [Memory.read_nil, List.getElem?_eq_none (by omega)]

theorem Memory.writeBytes_wf {m : Memory} (h : Memory.wf m) (a : Nat) (bs : List Byte) : Memory.wf (Memory.writeBytes m a bs) := by
  induction bs generalizing m a with
  | nil => exact h
  | cons b bs ih => exact ih (Memory.write_wf h a b) (a + 1)

theorem Memory.writeBytes_below {m : Memory} {n a : Nat} (bs : List Byte) (h : Memory.below n m) (ha : a + bs.length ≤ n) :
    Memory.below n (Memory.writeBytes m a bs) := by
  induction bs generalizing m a with
  | nil => exact h
  | cons b bs ih =>
    simp only [List.length_cons] at ha
    exact ih (Memory.write_below h (by omega) b) (by omega)

theorem Memory.wf_nil : Memory.wf [] := List.Pairwise.nil

/-- A cell listed in canonical form is what its index reads as. -/
theorem Memory.read_of_mem {m : Memory} (h : Memory.wf m) {a : Nat} {b : Byte} (hm : (a, b) ∈ m) : Memory.read m a = some b := by
  induction m with
  | nil => cases hm
  | cons c m ih =>
    obtain ⟨k, v⟩ := c
    obtain ⟨hk, hr⟩ := List.pairwise_cons.mp h
    rw [Memory.read_cons]
    rcases List.mem_cons.mp hm with heq | hm
    · cases heq; simp
    · have : k < a := hk _ hm
      rw [if_neg (by omega), ih hr hm]

/-- An index that reads as a byte is listed. -/
theorem Memory.mem_of_read {m : Memory} {a : Nat} {b : Byte} (h : Memory.read m a = some b) : (a, b) ∈ m := by
  induction m with
  | nil => simp at h
  | cons c m ih =>
    obtain ⟨k, v⟩ := c
    rw [Memory.read_cons] at h
    split at h
    · next heq => subst heq; cases h; exact List.mem_cons_self
    · exact List.mem_cons_of_mem _ (ih h)

/-- An index at or above the array's size holds no value. -/
theorem Memory.read_of_below {m : Memory} {n a : Nat} (h : Memory.below n m) (ha : n ≤ a) : Memory.read m a = none := by
  cases hr : Memory.read m a with
  | none => rfl
  | some b => exact absurd (h _ (Memory.mem_of_read hr)) (by simpa using ha)

/-- Two byte arrays in canonical form that read alike are equal data. -/
theorem Memory.ext_of_wf {m m' : Memory} (h : Memory.wf m) (h' : Memory.wf m') (hr : ∀ a, Memory.read m a = Memory.read m' a) : m = m' := by
  have sub : ∀ c, c ∈ m ↔ c ∈ m' := fun ⟨a, b⟩ =>
    ⟨fun hc => Memory.mem_of_read (hr a ▸ Memory.read_of_mem h hc), fun hc => Memory.mem_of_read ((hr a).symm ▸ Memory.read_of_mem h' hc)⟩
  have nodup : ∀ {m : Memory}, Memory.wf m → m.Nodup := fun hm => hm.imp fun {x y} hlt heq => by subst heq; exact Nat.lt_irrefl _ hlt
  have perm : m.Perm m' := (List.perm_ext_iff_of_nodup (nodup h) (nodup h')).mpr sub
  exact perm.eq_of_pairwise (fun a b _ _ h1 h2 => absurd h1 (Nat.lt_asymm h2)) h h'

/-- Reading a run of bytes: every one holds its byte. -/
theorem Memory.readBytes_ok (m : Memory) (a n : Nat) (d : List Byte) :
    Memory.readBytes m a n = .ok d ↔ d.length = n ∧ ∀ i, i < n → Memory.read m (a + i) = d[i]? := by
  induction n generalizing a d with
  | zero =>
    constructor
    · intro h; cases h; simp
    · rintro ⟨h, -⟩; rw [List.eq_nil_of_length_eq_zero h]; rfl
  | succ n ih =>
    unfold Memory.readBytes
    cases hr : Memory.read m a with
    | none =>
      simp only [reduceCtorEq, false_iff, not_and]
      intro hl h
      have := h 0 (by omega)
      rw [Nat.add_zero, hr, List.getElem?_eq_getElem (by omega)] at this
      cases this
    | some b =>
      cases hb : Memory.readBytes m (a + 1) n with
      | ok bs =>
        have hbs := (ih (a + 1) bs).mp hb
        simp only [Except.ok.injEq]
        constructor
        · rintro rfl
          refine ⟨by simp [hbs.1], fun i hi => ?_⟩
          cases i with
          | zero => simpa using hr
          | succ i => rw [List.getElem?_cons_succ, ← hbs.2 i (by omega), show a + (i + 1) = a + 1 + i by omega]
        · rintro ⟨hl, h⟩
          cases d with
          | nil => simp at hl
          | cons b' d =>
            have h0 := h 0 (by omega)
            rw [Nat.add_zero, hr] at h0
            have hd := (ih (a + 1) d).mpr ⟨by simpa using hl, fun i hi => by
              rw [show a + 1 + i = a + (i + 1) by omega, h (i + 1) (by omega), List.getElem?_cons_succ]⟩
            rw [hb] at hd
            cases hd
            simpa using h0
      | error j =>
        simp only [reduceCtorEq, false_iff, not_and]
        intro hl h
        cases d with
        | nil => simp at hl
        | cons b' d =>
          have hd := (ih (a + 1) d).mpr ⟨by simpa using hl, fun i hi => by
            rw [show a + 1 + i = a + (i + 1) by omega, h (i + 1) (by omega), List.getElem?_cons_succ]⟩
          rw [hb] at hd
          cases hd

/-- Reading a run of bytes fails at the first index that holds no value. -/
theorem Memory.readBytes_error {m : Memory} {a n j : Nat} (h : Memory.readBytes m a n = .error j) :
    a ≤ j ∧ j < a + n ∧ Memory.read m j = none ∧ ∀ i, a ≤ i → i < j → (Memory.read m i).isSome := by
  induction n generalizing a with
  | zero => cases h
  | succ n ih =>
    unfold Memory.readBytes at h
    cases hr : Memory.read m a with
    | none => rw [hr] at h; cases h; exact ⟨by omega, by omega, hr, fun i h1 h2 => by omega⟩
    | some b =>
      rw [hr] at h
      cases hb : Memory.readBytes m (a + 1) n with
      | ok bs => simp [hb] at h
      | error k =>
        simp only [hb, Except.error.injEq] at h
        subst h
        obtain ⟨h1, h2, h3, h4⟩ := ih hb
        refine ⟨by omega, by omega, h3, fun i hi hij => ?_⟩
        by_cases hia : i = a
        · subst hia; simp [hr]
        · exact h4 i (by omega) hij

end Sys2Proof.Machine
end

