-- ==== Sys2Proof/Laws/State.lean ====
section
/-! SUPPORT. One lemma per field per update of State, all true by rfl, so that no proof unfolds a record update. -/

namespace Sys2Proof.Machine

variable (s : State)

/-! ### acceptRequest -/

@[simp] theorem State.acceptRequest_reqHdr (w : Word) : (s.acceptRequest w).reqHdr = some w := rfl
@[simp] theorem State.acceptRequest_reqBuf (w : Word) : (s.acceptRequest w).reqBuf = s.reqBuf := rfl
@[simp] theorem State.acceptRequest_busy (w : Word) : (s.acceptRequest w).busy = true := rfl
@[simp] theorem State.acceptRequest_rspValid (w : Word) : (s.acceptRequest w).rspValid = false := rfl
@[simp] theorem State.acceptRequest_rspHdr (w : Word) : (s.acceptRequest w).rspHdr = s.rspHdr := rfl
@[simp] theorem State.acceptRequest_rspErr (w : Word) : (s.acceptRequest w).rspErr = s.rspErr := rfl
@[simp] theorem State.acceptRequest_obuf (w : Word) : (s.acceptRequest w).obuf = s.obuf := rfl
@[simp] theorem State.acceptRequest_olen (w : Word) : (s.acceptRequest w).olen = s.olen := rfl
@[simp] theorem State.acceptRequest_crcRes (w : Word) : (s.acceptRequest w).crcRes = s.crcRes := rfl
@[simp] theorem State.acceptRequest_desc (w : Word) : (s.acceptRequest w).desc = s.desc := rfl
@[simp] theorem State.acceptRequest_msgHdr (w : Word) : (s.acceptRequest w).msgHdr = s.msgHdr := rfl
@[simp] theorem State.acceptRequest_msgCrc (w : Word) : (s.acceptRequest w).msgCrc = s.msgCrc := rfl
@[simp] theorem State.acceptRequest_mData (w : Word) : (s.acceptRequest w).mData = s.mData := rfl
@[simp] theorem State.acceptRequest_ackRes (w : Word) : (s.acceptRequest w).ackRes = s.ackRes := rfl
@[simp] theorem State.acceptRequest_sensRes (w : Word) : (s.acceptRequest w).sensRes = s.sensRes := rfl
@[simp] theorem State.acceptRequest_host (w : Word) : (s.acceptRequest w).host = s.host := rfl
@[simp] theorem State.acceptRequest_reads (w : Word) : (s.acceptRequest w).reads = [] := rfl
@[simp] theorem State.acceptRequest_earlierReads (w : Word) : (s.acceptRequest w).earlierReads = s.reads :: s.earlierReads := rfl

/-! ### clearOutputs -/

@[simp] theorem State.clearOutputs_reqHdr : (s.clearOutputs).reqHdr = s.reqHdr := rfl
@[simp] theorem State.clearOutputs_reqBuf : (s.clearOutputs).reqBuf = s.reqBuf := rfl
@[simp] theorem State.clearOutputs_busy : (s.clearOutputs).busy = s.busy := rfl
@[simp] theorem State.clearOutputs_rspValid : (s.clearOutputs).rspValid = s.rspValid := rfl
@[simp] theorem State.clearOutputs_rspHdr : (s.clearOutputs).rspHdr = s.rspHdr := rfl
@[simp] theorem State.clearOutputs_rspErr : (s.clearOutputs).rspErr = s.rspErr := rfl
@[simp] theorem State.clearOutputs_obuf : (s.clearOutputs).obuf = [] := rfl
@[simp] theorem State.clearOutputs_olen : (s.clearOutputs).olen = none := rfl
@[simp] theorem State.clearOutputs_crcRes : (s.clearOutputs).crcRes = none := rfl
@[simp] theorem State.clearOutputs_desc : (s.clearOutputs).desc = none := rfl
@[simp] theorem State.clearOutputs_msgHdr : (s.clearOutputs).msgHdr = none := rfl
@[simp] theorem State.clearOutputs_msgCrc : (s.clearOutputs).msgCrc = none := rfl
@[simp] theorem State.clearOutputs_mData : (s.clearOutputs).mData = [] := rfl
@[simp] theorem State.clearOutputs_ackRes : (s.clearOutputs).ackRes = none := rfl
@[simp] theorem State.clearOutputs_sensRes : (s.clearOutputs).sensRes = none := rfl
@[simp] theorem State.clearOutputs_host : (s.clearOutputs).host = s.host := rfl
@[simp] theorem State.clearOutputs_reads : (s.clearOutputs).reads = s.reads := rfl
@[simp] theorem State.clearOutputs_earlierReads : (s.clearOutputs).earlierReads = s.earlierReads := rfl

/-! ### complete -/

@[simp] theorem State.complete_reqHdr (h e : Word) : (s.complete h e).reqHdr = s.reqHdr := rfl
@[simp] theorem State.complete_reqBuf (h e : Word) : (s.complete h e).reqBuf = s.reqBuf := rfl
@[simp] theorem State.complete_busy (h e : Word) : (s.complete h e).busy = false := rfl
@[simp] theorem State.complete_rspValid (h e : Word) : (s.complete h e).rspValid = true := rfl
@[simp] theorem State.complete_rspHdr (h e : Word) : (s.complete h e).rspHdr = some h := rfl
@[simp] theorem State.complete_rspErr (h e : Word) : (s.complete h e).rspErr = some e := rfl
@[simp] theorem State.complete_obuf (h e : Word) : (s.complete h e).obuf = [] := rfl
@[simp] theorem State.complete_olen (h e : Word) : (s.complete h e).olen = none := rfl
@[simp] theorem State.complete_crcRes (h e : Word) : (s.complete h e).crcRes = none := rfl
@[simp] theorem State.complete_desc (h e : Word) : (s.complete h e).desc = none := rfl
@[simp] theorem State.complete_msgHdr (h e : Word) : (s.complete h e).msgHdr = none := rfl
@[simp] theorem State.complete_msgCrc (h e : Word) : (s.complete h e).msgCrc = none := rfl
@[simp] theorem State.complete_mData (h e : Word) : (s.complete h e).mData = [] := rfl
@[simp] theorem State.complete_ackRes (h e : Word) : (s.complete h e).ackRes = none := rfl
@[simp] theorem State.complete_sensRes (h e : Word) : (s.complete h e).sensRes = none := rfl
@[simp] theorem State.complete_host (h e : Word) : (s.complete h e).host = s.host := rfl
@[simp] theorem State.complete_reads (h e : Word) : (s.complete h e).reads = s.reads := rfl
@[simp] theorem State.complete_earlierReads (h e : Word) : (s.complete h e).earlierReads = s.earlierReads := rfl

/-! ### memWrite -/

@[simp] theorem State.memWrite_reqHdr (i : Nat) (v : List Byte) : (s.memWrite i v).reqHdr = s.reqHdr := rfl
@[simp] theorem State.memWrite_reqBuf (i : Nat) (v : List Byte) : (s.memWrite i v).reqBuf = s.reqBuf := rfl
@[simp] theorem State.memWrite_busy (i : Nat) (v : List Byte) : (s.memWrite i v).busy = s.busy := rfl
@[simp] theorem State.memWrite_rspValid (i : Nat) (v : List Byte) : (s.memWrite i v).rspValid = s.rspValid := rfl
@[simp] theorem State.memWrite_rspHdr (i : Nat) (v : List Byte) : (s.memWrite i v).rspHdr = s.rspHdr := rfl
@[simp] theorem State.memWrite_rspErr (i : Nat) (v : List Byte) : (s.memWrite i v).rspErr = s.rspErr := rfl
@[simp] theorem State.memWrite_obuf (i : Nat) (v : List Byte) : (s.memWrite i v).obuf = Memory.writeBytes s.obuf i v := rfl
@[simp] theorem State.memWrite_olen (i : Nat) (v : List Byte) : (s.memWrite i v).olen = s.olen := rfl
@[simp] theorem State.memWrite_crcRes (i : Nat) (v : List Byte) : (s.memWrite i v).crcRes = s.crcRes := rfl
@[simp] theorem State.memWrite_desc (i : Nat) (v : List Byte) : (s.memWrite i v).desc = s.desc := rfl
@[simp] theorem State.memWrite_msgHdr (i : Nat) (v : List Byte) : (s.memWrite i v).msgHdr = s.msgHdr := rfl
@[simp] theorem State.memWrite_msgCrc (i : Nat) (v : List Byte) : (s.memWrite i v).msgCrc = s.msgCrc := rfl
@[simp] theorem State.memWrite_mData (i : Nat) (v : List Byte) : (s.memWrite i v).mData = s.mData := rfl
@[simp] theorem State.memWrite_ackRes (i : Nat) (v : List Byte) : (s.memWrite i v).ackRes = s.ackRes := rfl
@[simp] theorem State.memWrite_sensRes (i : Nat) (v : List Byte) : (s.memWrite i v).sensRes = s.sensRes := rfl
@[simp] theorem State.memWrite_host (i : Nat) (v : List Byte) : (s.memWrite i v).host = s.host := rfl
@[simp] theorem State.memWrite_reads (i : Nat) (v : List Byte) : (s.memWrite i v).reads = s.reads := rfl
@[simp] theorem State.memWrite_earlierReads (i : Nat) (v : List Byte) : (s.memWrite i v).earlierReads = s.earlierReads := rfl

/-! ### resetKeepingHost -/

@[simp] theorem State.resetKeepingHost_reqHdr : (s.resetKeepingHost).reqHdr = State.reset.reqHdr := rfl
@[simp] theorem State.resetKeepingHost_reqBuf : (s.resetKeepingHost).reqBuf = State.reset.reqBuf := rfl
@[simp] theorem State.resetKeepingHost_busy : (s.resetKeepingHost).busy = State.reset.busy := rfl
@[simp] theorem State.resetKeepingHost_rspValid : (s.resetKeepingHost).rspValid = State.reset.rspValid := rfl
@[simp] theorem State.resetKeepingHost_rspHdr : (s.resetKeepingHost).rspHdr = State.reset.rspHdr := rfl
@[simp] theorem State.resetKeepingHost_rspErr : (s.resetKeepingHost).rspErr = State.reset.rspErr := rfl
@[simp] theorem State.resetKeepingHost_obuf : (s.resetKeepingHost).obuf = State.reset.obuf := rfl
@[simp] theorem State.resetKeepingHost_olen : (s.resetKeepingHost).olen = State.reset.olen := rfl
@[simp] theorem State.resetKeepingHost_crcRes : (s.resetKeepingHost).crcRes = State.reset.crcRes := rfl
@[simp] theorem State.resetKeepingHost_desc : (s.resetKeepingHost).desc = State.reset.desc := rfl
@[simp] theorem State.resetKeepingHost_msgHdr : (s.resetKeepingHost).msgHdr = State.reset.msgHdr := rfl
@[simp] theorem State.resetKeepingHost_msgCrc : (s.resetKeepingHost).msgCrc = State.reset.msgCrc := rfl
@[simp] theorem State.resetKeepingHost_mData : (s.resetKeepingHost).mData = State.reset.mData := rfl
@[simp] theorem State.resetKeepingHost_ackRes : (s.resetKeepingHost).ackRes = State.reset.ackRes := rfl
@[simp] theorem State.resetKeepingHost_sensRes : (s.resetKeepingHost).sensRes = State.reset.sensRes := rfl
@[simp] theorem State.resetKeepingHost_host : (s.resetKeepingHost).host = s.host := rfl
@[simp] theorem State.resetKeepingHost_reads : (s.resetKeepingHost).reads = s.reads := rfl
@[simp] theorem State.resetKeepingHost_earlierReads : (s.resetKeepingHost).earlierReads = s.earlierReads := rfl

/-! ### load -/

@[simp] theorem State.load_reqHdr (acts : List HostAction) : (s.load acts).reqHdr = s.reqHdr := rfl
@[simp] theorem State.load_reqBuf (acts : List HostAction) : (s.load acts).reqBuf = s.reqBuf := rfl
@[simp] theorem State.load_busy (acts : List HostAction) : (s.load acts).busy = s.busy := rfl
@[simp] theorem State.load_rspValid (acts : List HostAction) : (s.load acts).rspValid = s.rspValid := rfl
@[simp] theorem State.load_rspHdr (acts : List HostAction) : (s.load acts).rspHdr = s.rspHdr := rfl
@[simp] theorem State.load_rspErr (acts : List HostAction) : (s.load acts).rspErr = s.rspErr := rfl
@[simp] theorem State.load_obuf (acts : List HostAction) : (s.load acts).obuf = s.obuf := rfl
@[simp] theorem State.load_olen (acts : List HostAction) : (s.load acts).olen = s.olen := rfl
@[simp] theorem State.load_crcRes (acts : List HostAction) : (s.load acts).crcRes = s.crcRes := rfl
@[simp] theorem State.load_desc (acts : List HostAction) : (s.load acts).desc = s.desc := rfl
@[simp] theorem State.load_msgHdr (acts : List HostAction) : (s.load acts).msgHdr = s.msgHdr := rfl
@[simp] theorem State.load_msgCrc (acts : List HostAction) : (s.load acts).msgCrc = s.msgCrc := rfl
@[simp] theorem State.load_mData (acts : List HostAction) : (s.load acts).mData = s.mData := rfl
@[simp] theorem State.load_ackRes (acts : List HostAction) : (s.load acts).ackRes = s.ackRes := rfl
@[simp] theorem State.load_sensRes (acts : List HostAction) : (s.load acts).sensRes = s.sensRes := rfl
@[simp] theorem State.load_host (acts : List HostAction) : (s.load acts).host = s.host ++ acts := rfl
@[simp] theorem State.load_reads (acts : List HostAction) : (s.load acts).reads = s.reads := rfl
@[simp] theorem State.load_earlierReads (acts : List HostAction) : (s.load acts).earlierReads = s.earlierReads := rfl

/-! ### withFetchWord -/

@[simp] theorem State.withFetchWord_reqHdr (nbits w : Nat) : (s.withFetchWord nbits w).reqHdr = s.reqHdr := rfl
@[simp] theorem State.withFetchWord_reqBuf (nbits w : Nat) : (s.withFetchWord nbits w).reqBuf = Memory.writeBytes s.reqBuf 0 (List.replicate (tableWordBytes nbits w) 0#8) := rfl
@[simp] theorem State.withFetchWord_busy (nbits w : Nat) : (s.withFetchWord nbits w).busy = false := rfl
@[simp] theorem State.withFetchWord_rspValid (nbits w : Nat) : (s.withFetchWord nbits w).rspValid = s.rspValid := rfl
@[simp] theorem State.withFetchWord_rspHdr (nbits w : Nat) : (s.withFetchWord nbits w).rspHdr = s.rspHdr := rfl
@[simp] theorem State.withFetchWord_rspErr (nbits w : Nat) : (s.withFetchWord nbits w).rspErr = s.rspErr := rfl
@[simp] theorem State.withFetchWord_obuf (nbits w : Nat) : (s.withFetchWord nbits w).obuf = s.obuf := rfl
@[simp] theorem State.withFetchWord_olen (nbits w : Nat) : (s.withFetchWord nbits w).olen = s.olen := rfl
@[simp] theorem State.withFetchWord_crcRes (nbits w : Nat) : (s.withFetchWord nbits w).crcRes = s.crcRes := rfl
@[simp] theorem State.withFetchWord_desc (nbits w : Nat) : (s.withFetchWord nbits w).desc = s.desc := rfl
@[simp] theorem State.withFetchWord_msgHdr (nbits w : Nat) : (s.withFetchWord nbits w).msgHdr = s.msgHdr := rfl
@[simp] theorem State.withFetchWord_msgCrc (nbits w : Nat) : (s.withFetchWord nbits w).msgCrc = s.msgCrc := rfl
@[simp] theorem State.withFetchWord_mData (nbits w : Nat) : (s.withFetchWord nbits w).mData = s.mData := rfl
@[simp] theorem State.withFetchWord_ackRes (nbits w : Nat) : (s.withFetchWord nbits w).ackRes = s.ackRes := rfl
@[simp] theorem State.withFetchWord_sensRes (nbits w : Nat) : (s.withFetchWord nbits w).sensRes = s.sensRes := rfl
@[simp] theorem State.withFetchWord_host (nbits w : Nat) : (s.withFetchWord nbits w).host = tableWordAction nbits w :: s.host := rfl
@[simp] theorem State.withFetchWord_reads (nbits w : Nat) : (s.withFetchWord nbits w).reads = s.reads := rfl
@[simp] theorem State.withFetchWord_earlierReads (nbits w : Nat) : (s.withFetchWord nbits w).earlierReads = s.earlierReads := rfl

/-! ### put: what every group's write leaves alone, and what each writes -/

@[simp] theorem State.put_reqHdr (o : Output) : (s.put o).reqHdr = s.reqHdr := by cases o <;> rfl
@[simp] theorem State.put_reqBuf (o : Output) : (s.put o).reqBuf = s.reqBuf := by cases o <;> rfl
@[simp] theorem State.put_busy (o : Output) : (s.put o).busy = s.busy := by cases o <;> rfl
@[simp] theorem State.put_rspValid (o : Output) : (s.put o).rspValid = s.rspValid := by cases o <;> rfl
@[simp] theorem State.put_rspHdr (o : Output) : (s.put o).rspHdr = s.rspHdr := by cases o <;> rfl
@[simp] theorem State.put_rspErr (o : Output) : (s.put o).rspErr = s.rspErr := by cases o <;> rfl
@[simp] theorem State.put_host (o : Output) : (s.put o).host = s.host := by cases o <;> rfl
@[simp] theorem State.put_reads (o : Output) : (s.put o).reads = s.reads := by cases o <;> rfl
@[simp] theorem State.put_earlierReads (o : Output) : (s.put o).earlierReads = s.earlierReads := by cases o <;> rfl
@[simp] theorem State.put_nothing_obuf : (s.put .nothing).obuf = s.obuf := rfl
@[simp] theorem State.put_nothing_olen : (s.put .nothing).olen = s.olen := rfl
@[simp] theorem State.put_nothing_crcRes : (s.put .nothing).crcRes = s.crcRes := rfl
@[simp] theorem State.put_nothing_desc : (s.put .nothing).desc = s.desc := rfl
@[simp] theorem State.put_nothing_msgHdr : (s.put .nothing).msgHdr = s.msgHdr := rfl
@[simp] theorem State.put_nothing_msgCrc : (s.put .nothing).msgCrc = s.msgCrc := rfl
@[simp] theorem State.put_nothing_mData : (s.put .nothing).mData = s.mData := rfl
@[simp] theorem State.put_nothing_ackRes : (s.put .nothing).ackRes = s.ackRes := rfl
@[simp] theorem State.put_nothing_sensRes : (s.put .nothing).sensRes = s.sensRes := rfl
@[simp] theorem State.put_enc_obuf (frame : List Byte) : (s.put (.enc frame)).obuf = Memory.writeBytes s.obuf 0 frame := rfl
@[simp] theorem State.put_enc_olen (frame : List Byte) : (s.put (.enc frame)).olen = some (BitVec.ofNat 32 frame.length) := rfl
@[simp] theorem State.put_enc_crcRes (frame : List Byte) : (s.put (.enc frame)).crcRes = s.crcRes := rfl
@[simp] theorem State.put_enc_desc (frame : List Byte) : (s.put (.enc frame)).desc = s.desc := rfl
@[simp] theorem State.put_enc_msgHdr (frame : List Byte) : (s.put (.enc frame)).msgHdr = s.msgHdr := rfl
@[simp] theorem State.put_enc_msgCrc (frame : List Byte) : (s.put (.enc frame)).msgCrc = s.msgCrc := rfl
@[simp] theorem State.put_enc_mData (frame : List Byte) : (s.put (.enc frame)).mData = s.mData := rfl
@[simp] theorem State.put_enc_ackRes (frame : List Byte) : (s.put (.enc frame)).ackRes = s.ackRes := rfl
@[simp] theorem State.put_enc_sensRes (frame : List Byte) : (s.put (.enc frame)).sensRes = s.sensRes := rfl
@[simp] theorem State.put_crc_obuf (c : Half) : (s.put (.crc c)).obuf = s.obuf := rfl
@[simp] theorem State.put_crc_olen (c : Half) : (s.put (.crc c)).olen = s.olen := rfl
@[simp] theorem State.put_crc_crcRes (c : Half) : (s.put (.crc c)).crcRes = some (c.setWidth 32) := rfl
@[simp] theorem State.put_crc_desc (c : Half) : (s.put (.crc c)).desc = s.desc := rfl
@[simp] theorem State.put_crc_msgHdr (c : Half) : (s.put (.crc c)).msgHdr = s.msgHdr := rfl
@[simp] theorem State.put_crc_msgCrc (c : Half) : (s.put (.crc c)).msgCrc = s.msgCrc := rfl
@[simp] theorem State.put_crc_mData (c : Half) : (s.put (.crc c)).mData = s.mData := rfl
@[simp] theorem State.put_crc_ackRes (c : Half) : (s.put (.crc c)).ackRes = s.ackRes := rfl
@[simp] theorem State.put_crc_sensRes (c : Half) : (s.put (.crc c)).sensRes = s.sensRes := rfl
@[simp] theorem State.put_desc_obuf (w : Word) : (s.put (.desc w)).obuf = s.obuf := rfl
@[simp] theorem State.put_desc_olen (w : Word) : (s.put (.desc w)).olen = s.olen := rfl
@[simp] theorem State.put_desc_crcRes (w : Word) : (s.put (.desc w)).crcRes = s.crcRes := rfl
@[simp] theorem State.put_desc_desc (w : Word) : (s.put (.desc w)).desc = some w := rfl
@[simp] theorem State.put_desc_msgHdr (w : Word) : (s.put (.desc w)).msgHdr = s.msgHdr := rfl
@[simp] theorem State.put_desc_msgCrc (w : Word) : (s.put (.desc w)).msgCrc = s.msgCrc := rfl
@[simp] theorem State.put_desc_mData (w : Word) : (s.put (.desc w)).mData = s.mData := rfl
@[simp] theorem State.put_desc_ackRes (w : Word) : (s.put (.desc w)).ackRes = s.ackRes := rfl
@[simp] theorem State.put_desc_sensRes (w : Word) : (s.put (.desc w)).sensRes = s.sensRes := rfl
@[simp] theorem State.put_msg_obuf (m : Message) : (s.put (.msg m)).obuf = s.obuf := rfl
@[simp] theorem State.put_msg_olen (m : Message) : (s.put (.msg m)).olen = s.olen := rfl
@[simp] theorem State.put_msg_crcRes (m : Message) : (s.put (.msg m)).crcRes = s.crcRes := rfl
@[simp] theorem State.put_msg_desc (m : Message) : (s.put (.msg m)).desc = s.desc := rfl
@[simp] theorem State.put_msg_msgHdr (m : Message) : (s.put (.msg m)).msgHdr = some m.hdrWord := rfl
@[simp] theorem State.put_msg_msgCrc (m : Message) : (s.put (.msg m)).msgCrc = some m.crcWord := rfl
@[simp] theorem State.put_msg_mData (m : Message) : (s.put (.msg m)).mData = Memory.writeBytes s.mData 0 m.data := rfl
@[simp] theorem State.put_msg_ackRes (m : Message) : (s.put (.msg m)).ackRes = s.ackRes := rfl
@[simp] theorem State.put_msg_sensRes (m : Message) : (s.put (.msg m)).sensRes = s.sensRes := rfl
@[simp] theorem State.put_ack_obuf (w : Word) : (s.put (.ack w)).obuf = s.obuf := rfl
@[simp] theorem State.put_ack_olen (w : Word) : (s.put (.ack w)).olen = s.olen := rfl
@[simp] theorem State.put_ack_crcRes (w : Word) : (s.put (.ack w)).crcRes = s.crcRes := rfl
@[simp] theorem State.put_ack_desc (w : Word) : (s.put (.ack w)).desc = s.desc := rfl
@[simp] theorem State.put_ack_msgHdr (w : Word) : (s.put (.ack w)).msgHdr = s.msgHdr := rfl
@[simp] theorem State.put_ack_msgCrc (w : Word) : (s.put (.ack w)).msgCrc = s.msgCrc := rfl
@[simp] theorem State.put_ack_mData (w : Word) : (s.put (.ack w)).mData = s.mData := rfl
@[simp] theorem State.put_ack_ackRes (w : Word) : (s.put (.ack w)).ackRes = some w := rfl
@[simp] theorem State.put_ack_sensRes (w : Word) : (s.put (.ack w)).sensRes = s.sensRes := rfl
@[simp] theorem State.put_sens_obuf (w : Word) : (s.put (.sens w)).obuf = s.obuf := rfl
@[simp] theorem State.put_sens_olen (w : Word) : (s.put (.sens w)).olen = s.olen := rfl
@[simp] theorem State.put_sens_crcRes (w : Word) : (s.put (.sens w)).crcRes = s.crcRes := rfl
@[simp] theorem State.put_sens_desc (w : Word) : (s.put (.sens w)).desc = s.desc := rfl
@[simp] theorem State.put_sens_msgHdr (w : Word) : (s.put (.sens w)).msgHdr = s.msgHdr := rfl
@[simp] theorem State.put_sens_msgCrc (w : Word) : (s.put (.sens w)).msgCrc = s.msgCrc := rfl
@[simp] theorem State.put_sens_mData (w : Word) : (s.put (.sens w)).mData = s.mData := rfl
@[simp] theorem State.put_sens_ackRes (w : Word) : (s.put (.sens w)).ackRes = s.ackRes := rfl
@[simp] theorem State.put_sens_sensRes (w : Word) : (s.put (.sens w)).sensRes = some w := rfl

/-! ### storeByte: only REQ_BUF can change -/

@[simp] theorem State.storeByte_reqHdr (r : ByteReg) (b : Byte) : (s.storeByte r b).reqHdr = s.reqHdr := by cases r <;> rfl
@[simp] theorem State.storeByte_busy (r : ByteReg) (b : Byte) : (s.storeByte r b).busy = s.busy := by cases r <;> rfl
@[simp] theorem State.storeByte_rspValid (r : ByteReg) (b : Byte) : (s.storeByte r b).rspValid = s.rspValid := by cases r <;> rfl
@[simp] theorem State.storeByte_rspHdr (r : ByteReg) (b : Byte) : (s.storeByte r b).rspHdr = s.rspHdr := by cases r <;> rfl
@[simp] theorem State.storeByte_rspErr (r : ByteReg) (b : Byte) : (s.storeByte r b).rspErr = s.rspErr := by cases r <;> rfl
@[simp] theorem State.storeByte_obuf (r : ByteReg) (b : Byte) : (s.storeByte r b).obuf = s.obuf := by cases r <;> rfl
@[simp] theorem State.storeByte_olen (r : ByteReg) (b : Byte) : (s.storeByte r b).olen = s.olen := by cases r <;> rfl
@[simp] theorem State.storeByte_crcRes (r : ByteReg) (b : Byte) : (s.storeByte r b).crcRes = s.crcRes := by cases r <;> rfl
@[simp] theorem State.storeByte_desc (r : ByteReg) (b : Byte) : (s.storeByte r b).desc = s.desc := by cases r <;> rfl
@[simp] theorem State.storeByte_msgHdr (r : ByteReg) (b : Byte) : (s.storeByte r b).msgHdr = s.msgHdr := by cases r <;> rfl
@[simp] theorem State.storeByte_msgCrc (r : ByteReg) (b : Byte) : (s.storeByte r b).msgCrc = s.msgCrc := by cases r <;> rfl
@[simp] theorem State.storeByte_mData (r : ByteReg) (b : Byte) : (s.storeByte r b).mData = s.mData := by cases r <;> rfl
@[simp] theorem State.storeByte_ackRes (r : ByteReg) (b : Byte) : (s.storeByte r b).ackRes = s.ackRes := by cases r <;> rfl
@[simp] theorem State.storeByte_sensRes (r : ByteReg) (b : Byte) : (s.storeByte r b).sensRes = s.sensRes := by cases r <;> rfl
@[simp] theorem State.storeByte_host (r : ByteReg) (b : Byte) : (s.storeByte r b).host = s.host := by cases r <;> rfl
@[simp] theorem State.storeByte_reads (r : ByteReg) (b : Byte) : (s.storeByte r b).reads = s.reads := by cases r <;> rfl
@[simp] theorem State.storeByte_earlierReads (r : ByteReg) (b : Byte) : (s.storeByte r b).earlierReads = s.earlierReads := by cases r <;> rfl
@[simp] theorem State.storeByte_reqBuf_reqBuf (i : Nat) (b : Byte) : (s.storeByte (.reqBuf i) b).reqBuf = Memory.write s.reqBuf i b := rfl
@[simp] theorem State.storeByte_obuf_reqBuf (i : Nat) (b : Byte) : (s.storeByte (.obuf i) b).reqBuf = s.reqBuf := rfl
@[simp] theorem State.storeByte_mData_reqBuf (i : Nat) (b : Byte) : (s.storeByte (.mData i) b).reqBuf = s.reqBuf := rfl
@[simp] theorem State.storeByte_reserved_reqBuf (b : Byte) : (s.storeByte .reserved b).reqBuf = s.reqBuf := rfl

end Sys2Proof.Machine
end

