-- ==== Sys2Proof/Laws/Exec.lean ====
section
/-! SUPPORT. What an instruction can do, said once: it responds with a result that fits its operation, or it meets a buffer byte below LEN
that holds no value (`exec_cases`); and what a response does to every piece of state (`respond_*`). -/

namespace Sys2Proof.Machine

/-! ### A response -/

variable (op : BitVec 4) (r : Result) (s : State)

@[simp] theorem respond_reqHdr : (s.respond op r).reqHdr = s.reqHdr := by cases r <;> simp [State.respond, State.raise, State.done]
@[simp] theorem respond_reqBuf : (s.respond op r).reqBuf = s.reqBuf := by cases r <;> simp [State.respond, State.raise, State.done]
@[simp] theorem respond_host : (s.respond op r).host = s.host := by cases r <;> simp [State.respond, State.raise, State.done]
@[simp] theorem respond_reads : (s.respond op r).reads = s.reads := by cases r <;> simp [State.respond, State.raise, State.done]
@[simp] theorem respond_earlierReads : (s.respond op r).earlierReads = s.earlierReads := by
  cases r <;> simp [State.respond, State.raise, State.done]
@[simp] theorem respond_busy : (s.respond op r).busy = false := by cases r <;> simp [State.respond, State.raise, State.done]
@[simp] theorem respond_rspValid : (s.respond op r).rspValid = true := by cases r <;> simp [State.respond, State.raise, State.done]

/-- RSP_HDR of a result. -/
def Result.hdrWord (op : BitVec 4) : Result → Word
  | .failed x => rspHdrWord op x.kind.retry x.kind
  | .done retry _ => rspHdrWord op retry .ok

/-- RSP_ERR of a result. -/
def Result.errWord : Result → Word
  | .failed x => x.errWord
  | .done _ _ => 0#32

@[simp] theorem respond_rspHdr : (s.respond op r).rspHdr = some (r.hdrWord op) := by
  cases r <;> simp [State.respond, State.raise, State.done, Result.hdrWord]
@[simp] theorem respond_rspErr : (s.respond op r).rspErr = some r.errWord := by
  cases r <;> simp [State.respond, State.raise, State.done, Result.errWord]
@[simp] theorem resOpField_hdrWord : resOpField (r.hdrWord op) = op := by cases r <;> simp [Result.hdrWord]

/-- After a failure no output group holds a value (spec/10_state.md R39). -/
theorem respond_failed_noOutput (x : Failure) : (s.respond op (.failed x)).NoOutput := by
  simp [State.respond, State.raise, State.NoOutput, State.NoEnc, State.NoCrc, State.NoDesc, State.NoMsg, State.NoAck, State.NoSens]

/-- What an operation writes belongs to that operation, and its reserved bits and bounds are as R29 to R34 say. -/
def Output.Fits (op : BitVec 4) : Output → Prop
  | .nothing => op = 0x2#4
  | .enc frame => op = 0x4#4 ∧ 5 ≤ frame.length ∧ frame.length ≤ 16
  | .crc _ => op = 0x1#4
  | .desc w => op = 0x3#4 ∧ w.extractLsb' 26 6 = 0#6 ∧ w.extractLsb' 12 2 ≠ 3#2 ∧ w.extractLsb' 19 2 ≠ 3#2
  | .msg m => op = 0x5#4 ∧ m.data.length ≤ 11
  | .ack w => op = 0x6#4 ∧ w.extractLsb' 2 6 = 0#6 ∧ w.extractLsb' 16 16 = 0#16 ∧ w.extractLsb' 0 2 ≠ 3#2
  | .sens w => op = 0x7#4 ∧ w.extractLsb' 2 6 = 0#6 ∧ w.extractLsb' 16 16 = 0#16 ∧ w.extractLsb' 0 2 ≠ 3#2

/-- A result fits its operation. -/
def Result.Fits (op : BitVec 4) : Result → Prop
  | .failed x => x.kind ≠ .ok
  | .done _ o => o.Fits op

/-- A response leaves a value in no group but its operation's own (spec/10_state.md R39). -/
theorem respond_onlyGroupOf {op : BitVec 4} {r : Result} (h : r.Fits op) : (s.respond op r).OnlyGroupOf op := by
  cases r with
  | failed x => obtain ⟨h1, h2, h3, h4, h5, h6⟩ := respond_failed_noOutput op s x; exact ⟨fun _ => h1, fun _ => h2, fun _ => h3, fun _ => h4, fun _ => h5, fun _ => h6⟩
  | done retry o =>
    cases o <;> simp only [Result.Fits, Output.Fits] at h <;>
      simp [State.respond, State.done, State.OnlyGroupOf, State.NoEnc, State.NoCrc, State.NoDesc, State.NoMsg, State.NoAck, State.NoSens, h]

/-! ### The results of the operations fit them -/

theorem frameLength_kind_ne_three (l : FrameLength) : l.kind ≠ 3#2 := by cases l <;> simp [FrameLength.kind]
theorem ackClass_code_ne_three (c : AckClass) : c.code ≠ 3#2 := by cases c <;> simp [AckClass.code]
theorem sensorClass_code_ne_three (c : SensorClass) : c.code ≠ 3#2 := by cases c <;> simp [SensorClass.code]

theorem validateResult_fits (a : Byte) : (validateResult a).Fits 0x2#4 := by
  unfold validateResult; split <;> simp [Result.Fits, Output.Fits]

theorem lookupResult_fits (f : Byte) : (lookupResult f).Fits 0x3#4 := by
  unfold lookupResult
  split
  · simp [Result.Fits, Output.Fits, frameLength_kind_ne_three]
  · simp [Result.Fits]

theorem ackOutput_fits (c : AckClass) (k : Byte) : (Output.ack (ackResWord c k)).Fits 0x6#4 := by
  simp [Output.Fits, ackClass_code_ne_three]

theorem sensOutput_fits (c : SensorClass) (k : Byte) : (Output.sens (sensResWord c k)).Fits 0x7#4 := by
  simp [Output.Fits, sensorClass_code_ne_three]

theorem classifyAckResult_fits (k : Byte) : (classifyAckResult k).Fits 0x6#4 := by
  unfold classifyAckResult
  split; · exact ackOutput_fits _ _
  split; · exact ackOutput_fits _ _
  split; · exact ackOutput_fits _ _
  simp [Result.Fits]

theorem sensorByteResult_fits (b : Byte) : (sensorByteResult b).Fits 0x7#4 := by
  unfold sensorByteResult
  split; · exact sensOutput_fits _ _
  split; · exact sensOutput_fits _ _
  simp [Result.Fits]

theorem withCrc_length (s : List Byte) : (withCrc s).length = s.length + 2 := by simp [withCrc]

theorem commandFrame_length (a f : Byte) (d : List Byte) : (commandFrame a f d).length = d.length + 5 := by
  simp [commandFrame, withCrc_length]

/-- A length check that passes leaves at most 11 data bytes, and meets a fixed command length. -/
theorem encodeLengthCheck_none {d : Descriptor} {len : Nat} (h : encodeLengthCheck d len = none) :
    len ≤ 11 ∧ ∀ n, d.cmd = .fixed n → 5 + len = n.toNat := by
  unfold encodeLengthCheck at h
  simp only [dataMax, hdrLen, crcLen] at h
  have bound : (if len > 11 then some (⟨.dataLengthOutOfRange, lenByte len, lenByte frameMax, 0#8, 0#8⟩ : Failure) else none) = none → len ≤ 11 := by
    intro hb; split at hb
    · simp at hb
    · omega
  cases hc : d.cmd with
  | fixed n =>
    rw [hc] at h
    by_cases hn : 3 + len + 2 = n.toNat
    · simp only [hn, if_true] at h
      exact ⟨bound h, fun m hm => by cases hm; omega⟩
    · simp [hn] at h
  | varying => rw [hc] at h; exact ⟨bound h, by simp⟩
  | absent => rw [hc] at h; exact ⟨bound h, by simp⟩

theorem encodeLengthCheck_kind {d : Descriptor} {len : Nat} {x : Failure} (h : encodeLengthCheck d len = some x) :
    x.kind = .dataLengthOutOfRange := by
  unfold encodeLengthCheck at h
  simp only at h
  repeat' split at h
  all_goals first | (cases h; rfl) | simp at h

/-- The checks of ENCODE pass exactly on a valid address, a seeded base code and a length its descriptor admits. -/
theorem encodeCheck_none {f a : Byte} {len : Nat} (h : encodeCheck f a len = none) :
    addrValid a = true ∧ errBit f = false ∧ ∃ r, lookup f = some r ∧ encodeLengthCheck r.desc len = none := by
  unfold encodeCheck at h
  split at h; · simp at h
  split at h; · simp at h
  split at h
  · simp at h
  · next h1 h2 _ r hr => exact ⟨by simpa using h1, by simpa using h2, r, hr, h⟩

theorem encodeCheck_kind {f a : Byte} {len : Nat} {x : Failure} (h : encodeCheck f a len = some x) : x.kind ≠ .ok := by
  unfold encodeCheck at h
  split at h; · cases h; simp
  split at h; · cases h; simp
  split at h
  · cases h; simp
  · rw [encodeLengthCheck_kind h]; simp

theorem decodeLengthCheck_none {n : Nat} : decodeLengthCheck n = none ↔ 5 ≤ n ∧ n ≤ 16 := by
  unfold decodeLengthCheck
  by_cases h1 : n < 5
  · simp [frameMin, h1]
  · by_cases h2 : n > 16
    · simp [frameMin, frameMax, h1, h2]
    · simp [frameMin, frameMax, h1, h2]; omega

theorem decodeLengthCheck_kind {n : Nat} {x : Failure} (h : decodeLengthCheck n = some x) : x.kind = .malformedFrame := by
  unfold decodeLengthCheck at h
  repeat' split at h
  all_goals first | (cases h; rfl) | simp at h

theorem replyLengthCheck_kind {d : Descriptor} {n : Nat} {x : Failure} (h : replyLengthCheck d n = some x) : x.kind = .malformedFrame := by
  unfold replyLengthCheck at h
  repeat' split at h
  all_goals first | (cases h; rfl) | simp at h

theorem messageOf_data_length {raw : List Byte} {n : Nat} (hl : raw.length = n) (hn : 5 ≤ n) : (messageOf raw n).data.length = n - 5 := by
  simp [messageOf, slice, hdrLen, crcLen, hl]; omega

theorem decodeResult_fits {raw : List Byte} {n : Nat} (e : Byte) (hl : raw.length = n) (h5 : 5 ≤ n) (h16 : n ≤ 16) :
    (decodeResult raw n e).Fits 0x5#4 := by
  unfold decodeResult
  simp only
  split; · simp [Result.Fits]
  split; · simp [Result.Fits]
  split; · simp [Result.Fits]
  split
  · next h => simp [Result.Fits, replyLengthCheck_kind h]
  · simp only [Result.Fits, Output.Fits, true_and, messageOf_data_length hl h5]; omega

/-! ### What statements about one instruction are put together from -/

/-- A response leaves the request, the host's pending actions and its record as they were. -/
theorem respond_sameRequest (op : BitVec 4) (r : Result) (s : State) : s.SameRequest (s.respond op r) :=
  ⟨by simp, by simp, by simp, by simp, by simp⟩

/-- A response writes the two response words. -/
theorem respond_responds (op : BitVec 4) (r : Result) (s : State) : (s.respond op r).Responds (r.hdrWord op) r.errWord :=
  ⟨by simp, by simp, by simp, by simp⟩

/-- MemRead of bytes that hold a value goes on with them. -/
theorem withMemRead_of_bufHolds {s : State} {d : List Byte} {n : Nat} (hl : d.length = n) (h : s.BufHolds d)
    (k : List Byte → Host.Outcome State Fault Refusal) : withMemRead 0 n s k = k d := by
  have hr : s.memRead 0 n = .ok d := (Memory.readBytes_ok _ _ _ _).mpr ⟨hl, fun i hi => by rw [Nat.zero_add]; exact h i (by omega)⟩
  unfold withMemRead
  rw [hr]

/-- MemRead is the fault of the first byte that holds no value. -/
theorem withMemRead_of_none {s : State} {n k : Nat} (hk : k < n) (h : Memory.read s.reqBuf k = none)
    (hj : ∀ j, j < k → (Memory.read s.reqBuf j).isSome = true) (f : List Byte → Host.Outcome State Fault Refusal) :
    withMemRead 0 n s f = .fault (.valuelessRead (0x10 + k)) := by
  have hr : s.memRead 0 n = .error k := by
    cases hm : s.memRead 0 n with
    | ok d =>
      have hd := (Memory.readBytes_ok _ _ _ _).mp hm
      have hv := hd.2 k hk
      rw [Nat.zero_add, h, List.getElem?_eq_getElem (by omega)] at hv
      cases hv
    | error j =>
      obtain ⟨-, -, h3, h4⟩ := Memory.readBytes_error hm
      rcases Nat.lt_trichotomy j k with hlt | heq | hlt
      · have := hj j hlt
        rw [h3] at this
        cases this
      · rw [heq]
      · have := h4 k (by omega) hlt
        rw [h] at this
        cases this
  unfold withMemRead
  rw [hr]
  rfl

/-- AddrValid in numbers (spec/42_address_validator.md R140). -/
theorem addrValid_iff (a : Byte) : addrValid a = true ↔ a = 0x00#8 ∨ (a.getLsbD 0 = true ∧ 0x15#8 ≤ a ∧ a ≤ 0xF7#8) := by
  simp only [addrValid, Bool.or_eq_true, Bool.and_eq_true, decide_eq_true_eq, beq_iff_eq, and_assoc]
  rfl

/-- The fault-byte path of CLASSIFY_SENSOR (spec/45_classifier.md R206). -/
theorem execClassifySensor_byte (a b : Byte) {len : BitVec 5} {s : State} (h : sensorFaultIndex < len.toNat)
    (hb : Memory.read s.reqBuf sensorFaultIndex = some b) :
    execClassifySensor 0x45#8 a len s = .next (s.respond 0x7#4 (sensorByteResult b)) := by
  unfold execClassifySensor
  rw [if_neg (by simp; omega)]
  simp [withMemRead, State.memRead, Memory.readBytes, hb, elemAt]

/-- The accumulator over a sequence put together of two (spec/10_state.md R37). -/
theorem crcFrom_append (acc : Half) (s t : List Byte) : crcFrom acc (s ++ t) = crcFrom (crcFrom acc s) t := by
  induction s generalizing acc with
  | nil => rfl
  | cons b s ih => exact ih _

/-! ### What an instruction can do -/

/-- An instruction of operation `op` that needs no buffer byte at or above `n` responds with a fitting result, or meets one below `n` that
holds no value. -/
def Responds (op : BitVec 4) (n : Nat) (s : State) (x : Host.Outcome State Fault Refusal) : Prop :=
  (∃ r, r.Fits op ∧ x = .next (s.respond op r)) ∨
    ∃ k, k < n ∧ Memory.read s.reqBuf k = none ∧ x = .fault (.valuelessRead (0x10 + k))

/-- Reading the buffer, then responding. -/
theorem withMemRead_responds {op : BitVec 4} {i n m : Nat} {s : State} {k : List Byte → Result} (hm : i + n ≤ m)
    (hk : ∀ d, d.length = n → (k d).Fits op) : Responds op m s (withMemRead i n s fun d => .next (s.respond op (k d))) := by
  unfold withMemRead State.memRead
  cases h : Memory.readBytes s.reqBuf i n with
  | ok d => exact .inl ⟨k d, hk d ((Memory.readBytes_ok _ _ _ _).mp h).1, rfl⟩
  | error j => obtain ⟨_, h2, h3, _⟩ := Memory.readBytes_error h; exact .inr ⟨j, by omega, h3, rfl⟩

theorem encodeOp_responds (f a : Byte) (len : BitVec 5) (s : State) : Responds 0x4#4 len.toNat s (encodeOp f a len s) := by
  unfold encodeOp
  cases h : encodeCheck f a len.toNat with
  | some x => exact .inl ⟨.failed x, encodeCheck_kind h, rfl⟩
  | none =>
    obtain ⟨-, -, r, -, hr⟩ := encodeCheck_none h
    have := (encodeLengthCheck_none hr).1
    refine withMemRead_responds (by omega) fun d hd => ⟨rfl, ?_⟩
    rw [commandFrame_length]; omega

theorem lookupOp_responds (f : Byte) (n : Nat) (s : State) : Responds 0x3#4 n s (lookupOp f s) := .inl ⟨_, lookupResult_fits f, rfl⟩

theorem classifyAckOp_responds (k : Byte) (n : Nat) (s : State) : Responds 0x6#4 n s (classifyAckOp k s) := .inl ⟨_, classifyAckResult_fits k, rfl⟩

/-- Everything an instruction can do. It never refuses. -/
theorem exec_cases (i : Instr) (s : State) : Responds (opOf i) (lenOf i) s (exec i s) := by
  cases i with
  | crc f a len => exact withMemRead_responds (by simp [lenOf]) fun _ _ => rfl
  | validate f a len => exact .inl ⟨_, validateResult_fits a, rfl⟩
  | lookup f a len => exact lookupOp_responds _ _ _
  | encode f a len => exact encodeOp_responds _ _ _ _
  | decode f a len =>
    show Responds 0x5#4 len.toNat s (execDecode f a len s)
    unfold execDecode
    cases h : decodeLengthCheck len.toNat with
    | some x => exact .inl ⟨.failed x, by simp [Result.Fits, decodeLengthCheck_kind h], rfl⟩
    | none =>
      obtain ⟨h5, h16⟩ := decodeLengthCheck_none.mp h
      exact withMemRead_responds (by omega) fun d hd => decodeResult_fits a hd h5 h16
  | classifyAck f a len => exact classifyAckOp_responds _ _ _
  | classifySensor f a len =>
    show Responds 0x7#4 len.toNat s (execClassifySensor f a len s)
    unfold execClassifySensor
    split
    · exact .inl ⟨.done false (.sens (sensResWord .notApplicable 0#8)), sensOutput_fits _ _, rfl⟩
    · next h => exact withMemRead_responds (by simp only [not_or] at h; omega) fun d _ => sensorByteResult_fits _
  | illegalOp f a rsv1 len rsv0 op => exact .inl ⟨.failed _, by simp [Result.Fits, illegalOpFailure], rfl⟩
  | go a => exact encodeOp_responds _ _ _ _
  | stop a => exact encodeOp_responds _ _ _ _
  | status a => exact encodeOp_responds _ _ _ _
  | setdemand a => exact encodeOp_responds _ _ _ _
  | readsensor a => exact encodeOp_responds _ _ _ _
  | storecfg a => exact encodeOp_responds _ _ _ _
  | readid a len => exact encodeOp_responds _ _ _ _
  | config a len => exact encodeOp_responds _ _ _ _
  | fnGo | fnStop | fnStatus | fnSetDemand | fnReadSensor | fnReadIdentification | fnConfigurationReadWrite | fnStoreConfiguration =>
    exact lookupOp_responds _ _ _
  | fnGoError | fnStopError | fnStatusError | fnSetDemandError | fnReadSensorError | fnReadIdentificationError => exact lookupOp_responds _ _ _
  | fnConfigurationReadWriteError | fnStoreConfigurationError => exact lookupOp_responds _ _ _
  | ackReply | ackCommand | nack01 | nack02 | nack03 | nack04 | nack05 | nack06 | nack07 | nack08 | nack09 | nack0A =>
    exact classifyAckOp_responds _ _ _

end Sys2Proof.Machine
end

