-- ==== Sys2Proof/Laws/Step.lean ====
section
/-! SUPPORT. What a step can do, said once (`step_cases`), and the decoder's agreement with the operations. -/

namespace Sys2Proof.Machine

/-! ### The operation of a decoded header -/

/-- The sixteen values of OP (spec/30_encoding.md R71). -/
theorem op_cases (op : BitVec 4) :
    op = 0x0#4 ∨ op = 0x1#4 ∨ op = 0x2#4 ∨ op = 0x3#4 ∨ op = 0x4#4 ∨ op = 0x5#4 ∨ op = 0x6#4 ∨ op = 0x7#4 ∨ 0x8#4 ≤ op := by
  revert op; decide

theorem opOf_decodeEncode (f a : Byte) (len : BitVec 5) : opOf (decodeEncode f a len) = 0x4#4 := by
  unfold decodeEncode
  repeat' split
  all_goals rfl

/-- The operation map holds exactly 0x1..0x7 (R71, R74). -/
theorem decodeOp_none {f a : Byte} {len : BitVec 5} {op : BitVec 4} : decodeOp f a len op = none ↔ op = 0x0#4 ∨ 0x8#4 ≤ op := by
  rcases op_cases op with rfl | rfl | rfl | rfl | rfl | rfl | rfl | rfl | h <;> try (simp [decodeOp])
  simp only [h, or_true, iff_true]
  repeat' split
  all_goals first | rfl | (subst op; exact absurd h (by decide))

theorem opOf_decodeOp {f a : Byte} {len : BitVec 5} {op : BitVec 4} {i : Instr} (h : decodeOp f a len op = some i) : opOf i = op := by
  unfold decodeOp at h
  repeat' split at h
  all_goals first | (cases h; subst op; first | rfl | exact opOf_decodeEncode _ _ _) | simp at h

/-- RES_OP is the OP field of the header, whatever it decodes to (spec/10_state.md R27). -/
theorem opOf_decodeFields (f a : Byte) (rsv1 : BitVec 3) (len : BitVec 5) (rsv0 op : BitVec 4) :
    opOf (decodeFields f a rsv1 len rsv0 op) = op := by
  unfold decodeFields
  split
  · cases h : decodeOp f a len op with
    | none => rfl
    | some i => exact opOf_decodeOp h
  · rfl

theorem opOf_decodeHeader (w : Word) : opOf (decodeHeader w) = opField w := opOf_decodeFields _ _ _ _ _ _

/-- LEN of the request is the LEN field of the header. -/
theorem lenOf_decodeFields (f a : Byte) (rsv1 : BitVec 3) (len : BitVec 5) (rsv0 op : BitVec 4) :
    lenOf (decodeFields f a rsv1 len rsv0 op) = len.toNat := by
  have henc : lenOf (decodeEncode f a len) = len.toNat := by
    unfold decodeEncode
    repeat' split
    all_goals first | rfl | simp_all [lenOf]
  unfold decodeFields decodeOp
  split
  · repeat' split
    all_goals first | rfl | exact henc
  · rfl

theorem lenOf_decodeHeader (w : Word) : lenOf (decodeHeader w) = (lenField w).toNat := lenOf_decodeFields _ _ _ _ _ _

theorem byteRow_mem {rows : List (Byte × Instr)} {b : Byte} {i : Instr} (h : byteRow rows b = some i) : (b, i) ∈ rows := by
  induction rows with
  | nil => simp [byteRow] at h
  | cons r rows ih =>
    obtain ⟨k, j⟩ := r
    unfold byteRow at h
    split at h
    · next hk => subst hk; cases h; exact List.mem_cons_self
    · exact List.mem_cons_of_mem _ (ih h)

theorem opOf_functionByteInstr (b : Byte) : opOf (functionByteInstr b) = 0x3#4 := by
  unfold functionByteInstr decodeFunctionByte
  cases h : byteRow functionByteMap b with
  | none => rfl
  | some i =>
    have : ∀ r ∈ functionByteMap, opOf r.2 = 0x3#4 := by decide
    exact this _ (byteRow_mem h)

theorem opOf_ackByteInstr (b : Byte) : opOf (ackByteInstr b) = 0x6#4 := by
  unfold ackByteInstr decodeAckByte
  cases h : byteRow ackByteMap b with
  | none => rfl
  | some i =>
    have : ∀ r ∈ ackByteMap, opOf r.2 = 0x6#4 := by decide
    exact this _ (byteRow_mem h)

/-! ### Host loads and stores -/

/-- A load that goes on adds one record and changes nothing else (spec/20_memory.md R55). -/
theorem observe_next {w : Width} {off : Nat} {b : Bool} {v : Except Nat Word} {s t : State} (h : s.observe w off b v = .next t) :
    ∃ x, v = .ok x ∧ (b && !s.rspValid) = false ∧ t = { s with reads := ⟨w, off, x⟩ :: s.reads } := by
  unfold State.observe at h
  split at h
  · simp at h
  · next x =>
    split at h
    · simp at h
    · next hc => cases h; exact ⟨x, rfl, by simpa using hc, rfl⟩

theorem hostRead_next {w : Width} {off : Nat} {s t : State} (h : hostRead w off s = .next t) :
    ∃ x, t = { s with reads := ⟨w, off, x⟩ :: s.reads } := by
  unfold hostRead at h
  repeat' split at h
  all_goals first | contradiction | (obtain ⟨x, -, -, hx⟩ := observe_next h; exact ⟨x, hx⟩)

/-- A byte place of REQ_BUF has an index below 31. -/
theorem byteRegAt_reqBuf {off i : Nat} (h : byteRegAt off = some (.reqBuf i)) : i < 31 ∧ off = 0x10 + i := by
  unfold byteRegAt at h
  repeat' split at h
  all_goals first | (simp only [Option.some.injEq, ByteReg.reqBuf.injEq] at h; omega) | simp at h

/-- A store changes REQ_BUF at most, and keeps its form. -/
theorem storeByte_reqBufOnly (s : State) (r : ByteReg) (b : Byte) (hr : ∀ i, r = .reqBuf i → i < 31) :
    ∃ m, s.storeByte r b = { s with reqBuf := m } ∧ (Memory.wf s.reqBuf ∧ Memory.below 31 s.reqBuf → Memory.wf m ∧ Memory.below 31 m) := by
  cases r with
  | reqBuf i => exact ⟨_, rfl, fun h => ⟨Memory.write_wf h.1 _ _, Memory.write_below h.2 (hr i rfl) _⟩⟩
  | obuf i => exact ⟨s.reqBuf, rfl, id⟩
  | mData i => exact ⟨s.reqBuf, rfl, id⟩
  | reserved => exact ⟨s.reqBuf, rfl, id⟩

theorem storeBytes_next {rs : List (ByteReg × Byte)} {s t : State} (hrs : ∀ rb ∈ rs, ∀ i, rb.1 = .reqBuf i → i < 31)
    (h : storeBytes rs s = .next t) :
    ∃ m, t = { s with reqBuf := m } ∧ (Memory.wf s.reqBuf ∧ Memory.below 31 s.reqBuf → Memory.wf m ∧ Memory.below 31 m) := by
  unfold storeBytes at h
  split at h
  · simp at h
  · injection h with h
    subst h
    clear * - hrs
    induction rs generalizing s with
    | nil => exact ⟨s.reqBuf, rfl, id⟩
    | cons rb rs ih =>
      obtain ⟨m, hm, hf⟩ := storeByte_reqBufOnly s rb.1 rb.2 (hrs rb List.mem_cons_self)
      obtain ⟨m', hm', hf'⟩ := ih (s := s.storeByte rb.1 rb.2) fun x hx => hrs x (List.mem_cons_of_mem _ hx)
      refine ⟨m', ?_, fun hw => hf' ?_⟩
      · rw [List.foldl_cons, hm', hm]
      · rw [hm]; exact hf hw

theorem wordRegsAt_some {off : Nat} {r0 r1 r2 r3 : ByteReg} (h : wordRegsAt off = some (r0, r1, r2, r3)) :
    byteRegAt off = some r0 ∧ byteRegAt (off + 1) = some r1 ∧ byteRegAt (off + 2) = some r2 ∧ byteRegAt (off + 3) = some r3 := by
  unfold wordRegsAt at h
  split at h
  · next h0 h1 h2 h3 => cases h; exact ⟨h0, h1, h2, h3⟩
  · simp at h

/-- What a store does: REQ_BUF, nothing, or an operation. -/
theorem hostWrite_next {w : Width} {off : Nat} {data : BitVec 64} {s t : State} (h : hostWrite w off data s = .next t) :
    (∃ m, t = { s with reqBuf := m } ∧ (Memory.wf s.reqBuf ∧ Memory.below 31 s.reqBuf → Memory.wf m ∧ Memory.below 31 m)) ∨
      ∃ hw : Word, s.busy = false ∧ exec (decodeHeader hw) (s.acceptRequest hw) = .next t := by
  unfold hostWrite at h
  split at h
  · split at h
    · next r hr => exact .inl (storeBytes_next (by rintro rb hrb i rfl'; cases List.mem_singleton.mp hrb; simp only at rfl'; subst rfl'; exact (byteRegAt_reqBuf hr).1) h)
    · simp at h
  · split at h
    · split at h
      · unfold startRequest at h
        split at h
        · simp at h
        · next hb => exact .inr ⟨_, by simpa using hb, h⟩
      · cases h; exact .inl ⟨s.reqBuf, rfl, id⟩
      · split at h
        · next r0 r1 r2 r3 hr =>
          obtain ⟨h0, h1, h2, h3⟩ := wordRegsAt_some hr
          refine .inl (storeBytes_next ?_ h)
          intro rb hrb i hi
          simp only [List.mem_cons, List.not_mem_nil, or_false] at hrb
          rcases hrb with rfl | rfl | rfl | rfl <;> simp only at hi <;> subst hi
          · exact (byteRegAt_reqBuf h0).1
          · exact (byteRegAt_reqBuf h1).1
          · exact (byteRegAt_reqBuf h2).1
          · exact (byteRegAt_reqBuf h3).1
        · simp at h
    · simp at h
  · simp at h
  · simp at h

/-! ### A step -/

/-- An operation that goes on has responded with a fitting result. -/
theorem exec_next {i : Instr} {s t : State} (h : exec i s = .next t) : ∃ r, r.Fits (opOf i) ∧ t = s.respond (opOf i) r := by
  rcases exec_cases i s with ⟨r, hr, he⟩ | ⟨k, -, -, he⟩
  · rw [he] at h; cases h; exact ⟨r, hr, rfl⟩
  · rw [he] at h; cases h

/-- Everything a step that goes on can have done. -/
inductive StepDoes (s : State) : State → Prop where
  /-- The host has nothing to do. -/
  | idle : s.host = [] → StepDoes s s
  /-- A load: one record more. -/
  | load (a : HostAction) (rest : List HostAction) (rec : ReadRecord) : s.host = a :: rest →
      StepDoes s { s with host := rest, reads := rec :: s.reads }
  /-- A store to REQ_BUF, or one with no effect. -/
  | store (a : HostAction) (rest : List HostAction) (m : Memory) : s.host = a :: rest →
      (Memory.wf s.reqBuf ∧ Memory.below 31 s.reqBuf → Memory.wf m ∧ Memory.below 31 m) → StepDoes s { s with host := rest, reqBuf := m }
  /-- An operation: the request is accepted and answered. -/
  | operation (a : HostAction) (rest : List HostAction) (w : Word) (r : Result) : s.host = a :: rest → s.busy = false → r.Fits (opField w) →
      StepDoes s ((({ s with host := rest } : State).acceptRequest w).respond (opField w) r)
  /-- Reset. -/
  | reset (rest : List HostAction) : s.host = .reset :: rest → StepDoes s ({ s with host := rest } : State).resetKeepingHost

theorem startRequest_next {w : Word} {i : Instr} {s t : State} (hi : opOf i = opField w) (h : startRequest w i s = .next t) :
    s.busy = false ∧ ∃ r, r.Fits (opField w) ∧ t = (s.acceptRequest w).respond (opField w) r := by
  unfold startRequest at h
  split at h
  · simp at h
  · next hb => rw [← hi]; exact ⟨by simpa using hb, exec_next h⟩

theorem step_cases {s t : State} (h : step s = .next t) : StepDoes s t := by
  unfold step stepHost at h
  cases hh : s.host with
  | nil => rw [hh] at h; cases h; exact .idle hh
  | cons a rest =>
    rw [hh] at h
    simp only at h
    cases a with
    | read who width off =>
      simp only [hostAct] at h
      split at h
      · obtain ⟨x, rfl⟩ := hostRead_next h
        exact .load _ rest _ hh
      · simp at h
    | write who width off data =>
      simp only [hostAct] at h
      split at h
      · rcases hostWrite_next h with ⟨m, rfl, hm⟩ | ⟨hw, hb, he⟩
        · exact .store _ rest m hh hm
        · obtain ⟨r, hr, rfl⟩ := exec_next he
          rw [opOf_decodeHeader] at hr ⊢
          exact .operation _ rest hw r hh hb hr
      · simp at h
    | functionByte b =>
      obtain ⟨hb, r, hr, rfl⟩ := startRequest_next (by simp [opOf_functionByteInstr, lookupHeader, header]) h
      exact .operation _ rest _ r hh hb hr
    | ackByte b =>
      obtain ⟨hb, r, hr, rfl⟩ := startRequest_next (by simp [opOf_ackByteInstr, ackHeader, header]) h
      exact .operation _ rest _ r hh hb hr
    | reset => cases h; exact .reset rest hh

end Sys2Proof.Machine
end

