-- ==== Sys2Proof/Laws/Window.lean ====
section
/-! SUPPORT. A step with a pending action, and the places of REQ_BUF in the window (spec/10_state.md R23; spec/20_memory.md R54). -/

namespace Sys2Proof.Machine

/-- A step takes the host's oldest action. -/
theorem step_of_host {s : State} {a : HostAction} {rest : List HostAction} (h : s.host = a :: rest) :
    step s = hostAct a { s with host := rest } := by
  unfold step stepHost
  rw [h]

/-- With nothing pending the machine stays as it is. -/
theorem step_idle {s : State} (h : s.host = []) : step s = .next s := by
  unfold step stepHost
  rw [h]

/-- REQ_BUF[i] stands at 0x10 + i. -/
theorem byteRegAt_reqBufBase {i : Nat} (h : i < 31) : byteRegAt (0x10 + i) = some (.reqBuf i) := by
  simp [byteRegAt]
  omega

/-- OBUF[i] stands at 0x30 + i. -/
theorem byteRegAt_obufBase {i : Nat} (h : i < 16) : byteRegAt (0x30 + i) = some (.obuf i) := by
  unfold byteRegAt
  rw [if_neg (by omega), if_neg (by omega), if_pos (by omega)]
  simp

/-- M_DATA[i] stands at 0x54 + i. -/
theorem byteRegAt_mDataBase {i : Nat} (h : i < 11) : byteRegAt (0x54 + i) = some (.mData i) := by
  unfold byteRegAt
  rw [if_neg (by omega), if_neg (by omega), if_neg (by omega), if_pos (by omega)]
  simp

/-- The value of a 32-bit place does not depend on what the host will do or has read. -/
theorem readReg32_host (s : State) (acts : List HostAction) (recs : List ReadRecord) (r : Reg32) :
    State.readReg32 { s with host := acts, reads := recs } r = s.readReg32 r := by cases r <;> rfl

/-- Nor does the value of a one-byte place. -/
theorem readByteReg_host (s : State) (acts : List HostAction) (recs : List ReadRecord) (r : ByteReg) :
    State.readByteReg { s with host := acts, reads := recs } r = s.readByteReg r := by cases r <;> rfl

/-- A byte stored to REQ_BUF while BUSY is 0. -/
theorem hostWrite_reqBuf {s : State} {i : Nat} (h : i < 31) (hb : s.busy = false) (data : BitVec 64) :
    hostWrite .b8 (0x10 + i) data s = .next { s with reqBuf := Memory.write s.reqBuf i (data.setWidth 8) } := by
  simp [hostWrite, byteRegAt_reqBufBase h, storeBytes, hb, State.storeByte]

end Sys2Proof.Machine
end

