-- ==== Sys2Proof/Laws/Outcome.lean ====
section
/-! SUPPORT. The class of a classified register, and when a run has ended (spec/45_classifier.md R209; spec/70_reset_and_hazards.md R260). -/

namespace Sys2Proof.Machine

@[simp] theorem ackClassIs_none (c : AckClass) : ackClassIs c none = false := rfl
@[simp] theorem sensorClassIs_none (c : SensorClass) : sensorClassIs c none = false := rfl

theorem ackClass_code_inj {c c' : AckClass} : c.code = c'.code ↔ c = c' := by cases c <;> cases c' <;> decide
theorem sensorClass_code_inj {c c' : SensorClass} : c.code = c'.code ↔ c = c' := by cases c <;> cases c' <;> decide

/-- ACK_RES has the class it was written with. -/
theorem ackClassIs_ackResWord (c c' : AckClass) (k : Byte) : ackClassIs c (some (ackResWord c' k)) = decide (c' = c) := by
  simp only [ackClassIs, ackResWord_class]
  cases c <;> cases c' <;> rfl

/-- SENS_RES has the class it was written with. -/
theorem sensorClassIs_sensResWord (c c' : SensorClass) (b : Byte) : sensorClassIs c (some (sensResWord c' b)) = decide (c' = c) := by
  simp only [sensorClassIs, sensResWord_class]
  cases c <;> cases c' <;> rfl

/-- A run that has ended is observed where it stands. -/
theorem runObservation_ended {s : State} (h : s.runEnded = true) (n : Nat) : runObservation n s = some s.observed := by
  cases n <;> simp [runObservation, h]

/-- A run that goes on is observed later. -/
theorem runObservation_next {s t : State} (h : s.runEnded = false) (hs : step s = .next t) (n : Nat) :
    runObservation (n + 1) s = runObservation n t := by
  simp [runObservation, h, hs]

/-- Without a response no run has ended. -/
theorem runEnded_of_not_valid {s : State} (h : s.rspValid = false) : s.runEnded = false := by simp [State.runEnded, h]

/-- Starting an instruction, if it goes on: a response is valid, and the host's reads until then stand with the request. -/
theorem startRequest_record {w : Word} {i : Instr} {s t : State} (h : startRequest w i s = .next t) :
    t.rspValid = true ∧ t.host = s.host ∧ t.reads = [] ∧ t.earlierReads = s.reads :: s.earlierReads := by
  unfold startRequest at h
  split at h
  · cases h
  · obtain ⟨r, -, rfl⟩ := exec_next h
    simp

/-- A step that takes an action which starts a request does no more than start one. -/
theorem step_startsRequest {s : State} {a : HostAction} {rest : List HostAction} (hh : s.host = a :: rest) (ha : a.startsRequest = true) :
    ∃ w i, step s = startRequest w i { s with host := rest } := by
  rw [step_of_host hh]
  cases a with
  | read who width off => simp [HostAction.startsRequest] at ha
  | reset => simp [HostAction.startsRequest] at ha
  | functionByte b => exact ⟨_, _, rfl⟩
  | ackByte b => exact ⟨_, _, rfl⟩
  | write who width off data =>
    obtain ⟨⟨rfl, rfl⟩, rfl⟩ : (who = 0 ∧ width = .b32) ∧ off = 0 := by simpa [HostAction.startsRequest] using ha
    exact ⟨_, _, rfl⟩

end Sys2Proof.Machine
end

