-- ==== Sys2Proof/Laws/PerInstr.lean ====
section
/-! SUPPORT. The family EncodesItsRow: the encoding of every well-formed instruction has the bits its row of spec/opcode_table.json fixes,
written out here from the table's match and mask. One lemma per constructor. -/

namespace Sys2Proof.Laws.EncodesItsRow

open Sys2Proof

/-- The fixed bits of a row of the opcode table. -/
inductive Row where
  /-- A request row: OP fixed, RSV0 and RSV1 zero, F and LEN fixed where the row fixes them. -/
  | request (op : BitVec 4) (f : Option Byte) (len : Option (BitVec 5))
  /-- The row of the reserved headers. -/
  | reserved
  /-- A wire function byte. -/
  | functionByte (b : Byte)
  /-- A wire ack byte. -/
  | ackByte (b : Byte)

/-- The row of each instruction, from the table. -/
def rowOf : Instr → Row
  | .crc _ _ _ => .request 1#4 none none
  | .validate _ _ _ => .request 2#4 none none
  | .lookup _ _ _ => .request 3#4 none none
  | .encode _ _ _ => .request 4#4 none none
  | .decode _ _ _ => .request 5#4 none none
  | .classifyAck _ _ _ => .request 6#4 none none
  | .classifySensor _ _ _ => .request 7#4 none none
  | .go _ => .request 4#4 (some 0x41#8) (some 0#5)
  | .stop _ => .request 4#4 (some 0x42#8) (some 0#5)
  | .status _ => .request 4#4 (some 0x43#8) (some 0#5)
  | .setdemand _ => .request 4#4 (some 0x44#8) (some 3#5)
  | .readsensor _ => .request 4#4 (some 0x45#8) (some 2#5)
  | .storecfg _ => .request 4#4 (some 0x65#8) (some 0#5)
  | .readid _ _ => .request 4#4 (some 0x46#8) none
  | .config _ _ => .request 4#4 (some 0x64#8) none
  | .illegalOp _ _ _ _ _ _ => .reserved
  | .fnGo => .functionByte 0x41#8
  | .fnStop => .functionByte 0x42#8
  | .fnStatus => .functionByte 0x43#8
  | .fnSetDemand => .functionByte 0x44#8
  | .fnReadSensor => .functionByte 0x45#8
  | .fnReadIdentification => .functionByte 0x46#8
  | .fnConfigurationReadWrite => .functionByte 0x64#8
  | .fnStoreConfiguration => .functionByte 0x65#8
  | .fnGoError => .functionByte 0xC1#8
  | .fnStopError => .functionByte 0xC2#8
  | .fnStatusError => .functionByte 0xC3#8
  | .fnSetDemandError => .functionByte 0xC4#8
  | .fnReadSensorError => .functionByte 0xC5#8
  | .fnReadIdentificationError => .functionByte 0xC6#8
  | .fnConfigurationReadWriteError => .functionByte 0xE4#8
  | .fnStoreConfigurationError => .functionByte 0xE5#8
  | .ackReply => .ackByte 0x10#8
  | .ackCommand => .ackByte 0x20#8
  | .nack01 => .ackByte 0x01#8
  | .nack02 => .ackByte 0x02#8
  | .nack03 => .ackByte 0x03#8
  | .nack04 => .ackByte 0x04#8
  | .nack05 => .ackByte 0x05#8
  | .nack06 => .ackByte 0x06#8
  | .nack07 => .ackByte 0x07#8
  | .nack08 => .ackByte 0x08#8
  | .nack09 => .ackByte 0x09#8
  | .nack0A => .ackByte 0x0A#8

/-- An encoding has the bits of a row. -/
def Row.Fits (r : Row) (e : Encoded) : Prop :=
  match r, e with
  | .request op f len, .header w => opField w = op ∧ rsv0Field w = 0#4 ∧ rsv1Field w = 0#3 ∧
      (∀ v, f = some v → fField w = v) ∧ (∀ v, len = some v → lenField w = v)
  | .reserved, .header w => reservedHeader (rsv1Field w) (rsv0Field w) (opField w) = true
  | .functionByte b, .functionByte b' => b' = b
  | .ackByte b, .ackByte b' => b' = b
  | .request _ _ _, .functionByte _ | .request _ _ _, .ackByte _ => False
  | .reserved, .functionByte _ | .reserved, .ackByte _ => False
  | .functionByte _, .header _ | .functionByte _, .ackByte _ => False
  | .ackByte _, .header _ | .ackByte _, .functionByte _ => False

/-- The family's statement. -/
def Statement (i : Instr) : Prop := i.WellFormed = true → (rowOf i).Fits (Sys2Proof.encode i)

/-- A request row's encoding. -/
theorem request_fits (f a : Byte) (len : BitVec 5) (op : BitVec 4) (fv : Option Byte) (lv : Option (BitVec 5))
    (hf : ∀ v, fv = some v → f = v) (hl : ∀ v, lv = some v → len = v) :
    (Row.request op fv lv).Fits (.header (header f a len op)) := by
  refine ⟨?_, ?_, ?_, fun v h => ?_, fun v h => ?_⟩
  · simp [header]
  · simp [header]
  · simp [header]
  · simp [header, hf v h]
  · simp [header, hl v h]

theorem crc (f : Byte) (a : Byte) (len : BitVec 5) : Statement (.crc f a len) := fun _ => request_fits _ _ _ _ _ _ (by simp) (by simp)
theorem validate (f : Byte) (a : Byte) (len : BitVec 5) : Statement (.validate f a len) := fun _ => request_fits _ _ _ _ _ _ (by simp) (by simp)
theorem lookup (f : Byte) (a : Byte) (len : BitVec 5) : Statement (.lookup f a len) := fun _ => request_fits _ _ _ _ _ _ (by simp) (by simp)
theorem encode (f : Byte) (a : Byte) (len : BitVec 5) : Statement (.encode f a len) := fun _ => request_fits _ _ _ _ _ _ (by simp) (by simp)
theorem decode (f : Byte) (a : Byte) (len : BitVec 5) : Statement (.decode f a len) := fun _ => request_fits _ _ _ _ _ _ (by simp) (by simp)
theorem classifyAck (f : Byte) (a : Byte) (len : BitVec 5) : Statement (.classifyAck f a len) := fun _ => request_fits _ _ _ _ _ _ (by simp) (by simp)
theorem classifySensor (f : Byte) (a : Byte) (len : BitVec 5) : Statement (.classifySensor f a len) := fun _ => request_fits _ _ _ _ _ _ (by simp) (by simp)
theorem go (a : Byte) : Statement (.go a) := fun _ => request_fits _ _ _ _ _ _ (by simp) (by simp)
theorem stop (a : Byte) : Statement (.stop a) := fun _ => request_fits _ _ _ _ _ _ (by simp) (by simp)
theorem status (a : Byte) : Statement (.status a) := fun _ => request_fits _ _ _ _ _ _ (by simp) (by simp)
theorem setdemand (a : Byte) : Statement (.setdemand a) := fun _ => request_fits _ _ _ _ _ _ (by simp) (by simp)
theorem readsensor (a : Byte) : Statement (.readsensor a) := fun _ => request_fits _ _ _ _ _ _ (by simp) (by simp)
theorem storecfg (a : Byte) : Statement (.storecfg a) := fun _ => request_fits _ _ _ _ _ _ (by simp) (by simp)
theorem readid (a : Byte) (len : BitVec 5) : Statement (.readid a len) := fun _ => request_fits _ _ _ _ _ _ (by simp) (by simp)
theorem config (a : Byte) (len : BitVec 5) : Statement (.config a len) := fun _ => request_fits _ _ _ _ _ _ (by simp) (by simp)
theorem illegalOp (f a : Byte) (rsv1 : BitVec 3) (len : BitVec 5) (rsv0 op : BitVec 4) : Statement (.illegalOp f a rsv1 len rsv0 op) :=
  fun h => by simpa [rowOf, Sys2Proof.encode, Row.Fits, Instr.WellFormed] using h
theorem fnGo : Statement .fnGo := fun _ => rfl
theorem fnStop : Statement .fnStop := fun _ => rfl
theorem fnStatus : Statement .fnStatus := fun _ => rfl
theorem fnSetDemand : Statement .fnSetDemand := fun _ => rfl
theorem fnReadSensor : Statement .fnReadSensor := fun _ => rfl
theorem fnReadIdentification : Statement .fnReadIdentification := fun _ => rfl
theorem fnConfigurationReadWrite : Statement .fnConfigurationReadWrite := fun _ => rfl
theorem fnStoreConfiguration : Statement .fnStoreConfiguration := fun _ => rfl
theorem fnGoError : Statement .fnGoError := fun _ => rfl
theorem fnStopError : Statement .fnStopError := fun _ => rfl
theorem fnStatusError : Statement .fnStatusError := fun _ => rfl
theorem fnSetDemandError : Statement .fnSetDemandError := fun _ => rfl
theorem fnReadSensorError : Statement .fnReadSensorError := fun _ => rfl
theorem fnReadIdentificationError : Statement .fnReadIdentificationError := fun _ => rfl
theorem fnConfigurationReadWriteError : Statement .fnConfigurationReadWriteError := fun _ => rfl
theorem fnStoreConfigurationError : Statement .fnStoreConfigurationError := fun _ => rfl
theorem ackReply : Statement .ackReply := fun _ => rfl
theorem ackCommand : Statement .ackCommand := fun _ => rfl
theorem nack01 : Statement .nack01 := fun _ => rfl
theorem nack02 : Statement .nack02 := fun _ => rfl
theorem nack03 : Statement .nack03 := fun _ => rfl
theorem nack04 : Statement .nack04 := fun _ => rfl
theorem nack05 : Statement .nack05 := fun _ => rfl
theorem nack06 : Statement .nack06 := fun _ => rfl
theorem nack07 : Statement .nack07 := fun _ => rfl
theorem nack08 : Statement .nack08 := fun _ => rfl
theorem nack09 : Statement .nack09 := fun _ => rfl
theorem nack0A : Statement .nack0A := fun _ => rfl

end Sys2Proof.Laws.EncodesItsRow
end

