-- ==== Sys2Proof/Tests/Slice0.lean ====
section
/-! SUPPORT. The model's own tests. Expected results are those of spec/95_test_vectors.md, or words written out bit by bit from
spec/30_encoding.md and the encodings of spec/opcode_table.json. The witnesses at the end meet the hypotheses of the statements. -/

namespace Sys2Proof.Tests

open Sys2Proof Sys2Proof.Machine

/-! ### Helpers -/

/-- The state after reset with bytes in REQ_BUF[0..]. -/
def holding (d : List Byte) : State := { State.reset with reqBuf := Memory.writeBytes [] 0 d }

/-- The state after reset with the host about to act. -/
def hosting (acts : List HostAction) : State := { State.reset with host := acts }

/-- What is seen of the next state, if there is one. -/
def got {α : Type} (x : Host.Outcome State Fault Refusal) (f : State → α) : Option α :=
  match x with
  | .next t => some (f t)
  | .fault _ => none
  | .refused _ => none

/-- The fault of an outcome. -/
def faultOf (x : Host.Outcome State Fault Refusal) : Option Fault :=
  match x with
  | .next _ => none
  | .fault r => some r
  | .refused _ => none

/-- The refusal of an outcome. -/
def refusalOf (x : Host.Outcome State Fault Refusal) : Option Refusal :=
  match x with
  | .next _ => none
  | .fault _ => none
  | .refused r => some r

/-- The bytes a byte array lists. -/
def bytesOf (m : Memory) : List Byte := m.map (·.2)

/-- RSP_HDR and RSP_ERR. -/
def response (t : State) : Option Word × Option Word := (t.rspHdr, t.rspErr)

/-- The frame of an ENCODE. -/
def frameOf (t : State) : Option Word × List Byte := (t.olen, bytesOf t.obuf)

/-! ### WellFormed: an ill-formed term for each check -/

theorem test_wf_refuses_go_word : (Instr.encode 0x41#8 0x15#8 0#5).WellFormed = false := by decide
theorem test_wf_refuses_stop_word : (Instr.encode 0x42#8 0x15#8 0#5).WellFormed = false := by decide
theorem test_wf_refuses_status_word : (Instr.encode 0x43#8 0x15#8 0#5).WellFormed = false := by decide
theorem test_wf_refuses_setdemand_word : (Instr.encode 0x44#8 0x15#8 3#5).WellFormed = false := by decide
theorem test_wf_refuses_readsensor_word : (Instr.encode 0x45#8 0x15#8 2#5).WellFormed = false := by decide
theorem test_wf_refuses_storecfg_word : (Instr.encode 0x65#8 0x15#8 0#5).WellFormed = false := by decide
theorem test_wf_refuses_readid_word : (Instr.encode 0x46#8 0x15#8 31#5).WellFormed = false := by decide
theorem test_wf_refuses_config_word : (Instr.encode 0x64#8 0x15#8 1#5).WellFormed = false := by decide
theorem test_wf_takes_other_encode_words : (Instr.encode 0x41#8 0x15#8 1#5).WellFormed = true ∧ (Instr.encode 0x44#8 0x15#8 2#5).WellFormed = true ∧
    (Instr.encode 0xC1#8 0x15#8 0#5).WellFormed = true := by decide
theorem test_wf_refuses_legal_header_as_illegal : (Instr.illegalOp 0#8 0#8 0#3 0#5 0#4 1#4).WellFormed = false ∧
    (Instr.illegalOp 0#8 0#8 0#3 0#5 0#4 7#4).WellFormed = false := by decide
theorem test_wf_takes_each_reserved_header : (Instr.illegalOp 0#8 0#8 0#3 0#5 0#4 0#4).WellFormed = true ∧
    (Instr.illegalOp 0#8 0#8 0#3 0#5 0#4 8#4).WellFormed = true ∧ (Instr.illegalOp 0#8 0#8 0#3 0#5 1#4 1#4).WellFormed = true ∧
    (Instr.illegalOp 0#8 0#8 1#3 0#5 0#4 2#4).WellFormed = true := by decide

/-! ### Decoding: a word for every constructor, FFFFFFFF AAAAAAAA 000LLLLL 0000OOOO (spec/30_encoding.md R70) -/

theorem test_decode_crc : decodeHeader 0b10100101010110100001111100000001#32 = .crc 0xA5#8 0x5A#8 31#5 := by decide
theorem test_decode_validate : decodeHeader 0b00000000000101100000000000000010#32 = .validate 0x00#8 0x16#8 0#5 := by decide
theorem test_decode_lookup : decodeHeader 0b11000001000000000000000000000011#32 = .lookup 0xC1#8 0x00#8 0#5 := by decide
theorem test_decode_encode : decodeHeader 0b11000001000101010000000000000100#32 = .encode 0xC1#8 0x15#8 0#5 := by decide
theorem test_decode_decode : decodeHeader 0b01000001000101010000010100000101#32 = .decode 0x41#8 0x15#8 5#5 := by decide
theorem test_decode_classifyAck : decodeHeader 0b00000000100110010000000000000110#32 = .classifyAck 0x00#8 0x99#8 0#5 := by decide
theorem test_decode_classifySensor : decodeHeader 0b01000101000000000000010000000111#32 = .classifySensor 0x45#8 0x00#8 4#5 := by decide
theorem test_decode_illegalOp : decodeHeader 0b00000000000101010000000000001111#32 = .illegalOp 0x00#8 0x15#8 0#3 0#5 0#4 15#4 ∧
    decodeHeader 0b00000000000101010010000000000010#32 = .illegalOp 0x00#8 0x15#8 1#3 0#5 0#4 2#4 ∧
    decodeHeader 0b00000000000000000000000000010001#32 = .illegalOp 0x00#8 0x00#8 0#3 0#5 1#4 1#4 := by decide
theorem test_decode_go : decodeHeader 0b01000001000101010000000000000100#32 = .go 0x15#8 := by decide
theorem test_decode_stop : decodeHeader 0b01000010111101110000000000000100#32 = .stop 0xF7#8 := by decide
theorem test_decode_status : decodeHeader 0b01000011001000010000000000000100#32 = .status 0x21#8 := by decide
theorem test_decode_setdemand : decodeHeader 0b01000100001000000000001100000100#32 = .setdemand 0x20#8 := by decide
theorem test_decode_readsensor : decodeHeader 0b01000101000101110000001000000100#32 = .readsensor 0x17#8 := by decide
theorem test_decode_storecfg : decodeHeader 0b01100101000101010000000000000100#32 = .storecfg 0x15#8 := by decide
theorem test_decode_readid : decodeHeader 0b01000110000101010000101100000100#32 = .readid 0x15#8 11#5 := by decide
theorem test_decode_config : decodeHeader 0b01100100000101010000001000000100#32 = .config 0x15#8 2#5 := by decide
theorem test_decode_functionBytes :
    decodeFunctionByte 0b01000001#8 = .ok .fnGo ∧ decodeFunctionByte 0b01000010#8 = .ok .fnStop ∧ decodeFunctionByte 0b01000011#8 = .ok .fnStatus ∧
    decodeFunctionByte 0b01000100#8 = .ok .fnSetDemand ∧ decodeFunctionByte 0b01000101#8 = .ok .fnReadSensor ∧
    decodeFunctionByte 0b01000110#8 = .ok .fnReadIdentification ∧ decodeFunctionByte 0b01100100#8 = .ok .fnConfigurationReadWrite ∧
    decodeFunctionByte 0b01100101#8 = .ok .fnStoreConfiguration := ⟨rfl, rfl, rfl, rfl, rfl, rfl, rfl, rfl⟩
theorem test_decode_errorBytes :
    decodeFunctionByte 0b11000001#8 = .ok .fnGoError ∧ decodeFunctionByte 0b11000010#8 = .ok .fnStopError ∧
    decodeFunctionByte 0b11000011#8 = .ok .fnStatusError ∧ decodeFunctionByte 0b11000100#8 = .ok .fnSetDemandError ∧
    decodeFunctionByte 0b11000101#8 = .ok .fnReadSensorError ∧ decodeFunctionByte 0b11000110#8 = .ok .fnReadIdentificationError ∧
    decodeFunctionByte 0b11100100#8 = .ok .fnConfigurationReadWriteError ∧ decodeFunctionByte 0b11100101#8 = .ok .fnStoreConfigurationError :=
  ⟨rfl, rfl, rfl, rfl, rfl, rfl, rfl, rfl⟩
theorem test_decode_ackBytes :
    decodeAckByte 0b00010000#8 = .ok .ackReply ∧ decodeAckByte 0b00100000#8 = .ok .ackCommand ∧ decodeAckByte 0b00000001#8 = .ok .nack01 ∧
    decodeAckByte 0b00000010#8 = .ok .nack02 ∧ decodeAckByte 0b00000011#8 = .ok .nack03 ∧ decodeAckByte 0b00000100#8 = .ok .nack04 ∧
    decodeAckByte 0b00000101#8 = .ok .nack05 ∧ decodeAckByte 0b00000110#8 = .ok .nack06 ∧ decodeAckByte 0b00000111#8 = .ok .nack07 ∧
    decodeAckByte 0b00001000#8 = .ok .nack08 ∧ decodeAckByte 0b00001001#8 = .ok .nack09 ∧ decodeAckByte 0b00001010#8 = .ok .nack0A :=
  ⟨rfl, rfl, rfl, rfl, rfl, rfl, rfl, rfl, rfl, rfl, rfl, rfl⟩
theorem test_decode_refuses_bytes : decodeFunctionByte 0x47#8 = .error (.unknownFunctionByte 0x47#8) ∧ decodeAckByte 0x99#8 = .error (.unknownAckByte 0x99#8) ∧
    decodeRequestBytes [1#8, 2#8, 3#8] = .error .shortHeader ∧ decodeWireBytes [] = .error .noWireByte := ⟨rfl, rfl, rfl, rfl⟩

theorem test_tableWord_header : decodeTableWord 32 0x41150004 = some (.go 0x15#8) := by decide
theorem test_tableWord_functionByte : decodeTableWord 8 0xE5 = some .fnStoreConfigurationError := by decide
theorem test_tableWord_ackByte : decodeTableWord 8 0x0A = some .nack0A := by decide
theorem test_tableWord_refused : decodeTableWord 8 0x99 = none := by decide

/-! ### The instructions, on vectors of spec/95_test_vectors.md -/

theorem test_crc_check_string : got (exec (.crc 0#8 0#8 9#5) (holding [0x31#8, 0x32#8, 0x33#8, 0x34#8, 0x35#8, 0x36#8, 0x37#8, 0x38#8, 0x39#8]))
    (·.crcRes) = some (some 0x00004B37#32) := by decide +kernel
theorem test_crc_longest : got (exec (.crc 0#8 0#8 31#5) (holding (List.replicate 31 0xFF#8))) (·.crcRes) = some (some 0x0000C0BE#32) := by decide +kernel
theorem test_validate_top : got (exec (.validate 0#8 0xF7#8 0#5) State.reset) response = some (some 0x00000200#32, some 0#32) := by decide
theorem test_validate_even : got (exec (.validate 0#8 0x16#8 0#5) State.reset) response = some (some 0x00000201#32, some 0x00000016#32) := by decide
theorem test_lookup_sensor : got (exec (.lookup 0x45#8 0#8 0#5) State.reset) (·.desc) = some (some 0x0121C445#32) := by decide
theorem test_lookup_unknown : got (exec (.lookup 0x80#8 0#8 0#5) State.reset) response = some (some 0x00000303#32, some 0x00000080#32) := by decide
theorem test_encode_address_first : got (exec (.encode 0xC1#8 0x16#8 0#5) State.reset) response = some (some 0x00000401#32, some 0x00000016#32) := by decide
theorem test_encode_fixed_length_first : got (exec (.encode 0x44#8 0x15#8 12#5) State.reset) response =
    some (some 0x00000404#32, some 0x0000080C#32) := by decide
theorem test_decode_status_reply : got (exec (.decode 0x43#8 0x15#8 6#5) (holding [0x15#8, 0x43#8, 0x10#8, 0x00#8, 0xF8#8, 0x3C#8]))
    (fun t => (t.msgHdr, t.msgCrc, bytesOf t.mData)) = some (some 0x01104315#32, some 0x00003CF8#32, [0x00#8]) := by decide +kernel
theorem test_decode_crc_before_address : got (exec (.decode 0x41#8 0x15#8 5#5) (holding [0x17#8, 0x41#8, 0x10#8, 0x00#8, 0x00#8])) response =
    some (some 0x00000516#32, some 0x58F00000#32) := by decide +kernel
theorem test_classifyAck_busy : got (exec (.classifyAck 0#8 0x06#8 0#5) State.reset) (fun t => (t.rspHdr, t.ackRes)) =
    some (some 0x00000610#32, some 0x00000602#32) := by decide
theorem test_classifyAck_unknown : got (exec (.classifyAck 0#8 0x0B#8 0#5) State.reset) response = some (some 0x00000608#32, some 0x0000000B#32) := by decide
theorem test_classifySensor_error_reply : got (exec (.classifySensor 0xC5#8 0#8 2#5) (holding [0x00#8, 0x21#8])) (·.sensRes) =
    some (some 0x00000000#32) := by decide
theorem test_classifySensor_empty : got (exec (.classifySensor 0x45#8 0#8 0#5) State.reset) (·.sensRes) = some (some 0x00000000#32) := by decide
theorem test_illegalOp_rsv1 : got (exec (.illegalOp 0#8 0x15#8 1#3 0#5 0#4 2#4) State.reset) response =
    some (some 0x0000020F#32, some 0x00022002#32) := by decide
theorem test_illegalOp_zero_word : got (exec (decodeHeader 0x00000000#32) State.reset) response = some (some 0x0000000F#32, some 0#32) := by decide

theorem test_go : got (exec (.go 0x15#8) State.reset) frameOf = some (some 5#32, [0x15#8, 0x41#8, 0x20#8, 0x51#8, 0x8C#8]) := by decide +kernel
theorem test_stop : got (exec (.stop 0xF7#8) State.reset) frameOf = some (some 5#32, [0xF7#8, 0x42#8, 0x20#8, 0xF1#8, 0x4A#8]) := by decide +kernel
theorem test_status : got (exec (.status 0x21#8) State.reset) frameOf = some (some 5#32, [0x21#8, 0x43#8, 0x20#8, 0x11#8, 0x22#8]) := by decide +kernel
theorem test_setdemand : got (exec (.setdemand 0x15#8) (holding [0x01#8, 0x02#8, 0x03#8])) frameOf =
    some (some 8#32, [0x15#8, 0x44#8, 0x20#8, 0x01#8, 0x02#8, 0x03#8, 0xE9#8, 0xB0#8]) := by decide +kernel
theorem test_readsensor : got (exec (.readsensor 0x17#8) (holding [0x01#8, 0x00#8])) frameOf =
    some (some 7#32, [0x17#8, 0x45#8, 0x20#8, 0x01#8, 0x00#8, 0x45#8, 0x55#8]) := by decide +kernel
theorem test_storecfg : got (exec (.storecfg 0x15#8) State.reset) frameOf = some (some 5#32, [0x15#8, 0x65#8, 0x20#8, 0x4A#8, 0x8C#8]) := by decide +kernel
theorem test_readid : got (exec (.readid 0x15#8 3#5) (holding [0x09#8, 0x08#8, 0x07#8])) frameOf =
    some (some 8#32, [0x15#8, 0x46#8, 0x20#8, 0x09#8, 0x08#8, 0x07#8, 0x16#8, 0xD1#8]) := by decide +kernel
theorem test_config : got (exec (.config 0x15#8 2#5) (holding [0x01#8, 0x02#8])) frameOf =
    some (some 7#32, [0x15#8, 0x64#8, 0x20#8, 0x01#8, 0x02#8, 0xB7#8, 0x68#8]) := by decide +kernel
theorem test_config_too_long : got (exec (.config 0x15#8 31#5) (holding (List.replicate 31 0#8))) response =
    some (some 0x00000404#32, some 0x0000101F#32) := by decide

theorem test_functionBytes : [exec .fnGo State.reset, exec .fnStop State.reset, exec .fnStatus State.reset, exec .fnSetDemand State.reset,
    exec .fnReadSensor State.reset, exec .fnReadIdentification State.reset, exec .fnConfigurationReadWrite State.reset,
    exec .fnStoreConfiguration State.reset].map (fun x => got x (·.desc)) =
    [some (some 0x00A14041#32), some (some 0x00A14142#32), some (some 0x00C14243#32), some (some 0x01020344#32), some (some 0x0121C445#32),
     some (some 0x00081546#32), some (some 0x00081664#32), some (some 0x00A14765#32)] := by decide
theorem test_errorBytes : [exec .fnGoError State.reset, exec .fnStopError State.reset, exec .fnStatusError State.reset, exec .fnSetDemandError State.reset,
    exec .fnReadSensorError State.reset, exec .fnReadIdentificationError State.reset, exec .fnConfigurationReadWriteError State.reset,
    exec .fnStoreConfigurationError State.reset].map (fun x => got x (·.desc)) =
    [some (some 0x000828C1#32), some (some 0x000828C2#32), some (some 0x000828C3#32), some (some 0x000828C4#32), some (some 0x000828C5#32),
     some (some 0x000828C6#32), some (some 0x000828E4#32), some (some 0x000828E5#32)] := by decide
theorem test_ackBytes : [exec .ackReply State.reset, exec .ackCommand State.reset, exec .nack01 State.reset, exec .nack02 State.reset,
    exec .nack03 State.reset, exec .nack04 State.reset, exec .nack05 State.reset, exec .nack06 State.reset, exec .nack07 State.reset,
    exec .nack08 State.reset, exec .nack09 State.reset, exec .nack0A State.reset].map (fun x => got x (·.ackRes)) =
    [some (some 0x000#32), some (some 0x001#32), some (some 0x102#32), some (some 0x202#32), some (some 0x302#32), some (some 0x402#32),
     some (some 0x502#32), some (some 0x602#32), some (some 0x702#32), some (some 0x802#32), some (some 0x902#32), some (some 0xA02#32)] := by decide

/-! ### Steps -/

/-- The host's question: step (reset.withFetchWord) runs the word as the first instruction (spec/95_test_vectors.md section 2). -/
theorem test_fetch_go : got (step (State.reset.withFetchWord 32 0x41150004)) frameOf =
    some (some 5#32, [0x15#8, 0x41#8, 0x20#8, 0x51#8, 0x8C#8]) := by decide +kernel
theorem test_fetch_crc : got (step (State.reset.withFetchWord 32 0x00000101)) (·.crcRes) = some (some 0x000040BF#32) := by decide
theorem test_fetch_functionByte : got (step (State.reset.withFetchWord 8 0xC1)) (fun t => (t.reqHdr, t.desc)) =
    some (some 0xC1000003#32, some 0x000828C1#32) := by decide
theorem test_fetch_ackByte : got (step (State.reset.withFetchWord 8 0x20)) (fun t => (t.reqHdr, t.ackRes)) =
    some (some 0x00200006#32, some 0x00000001#32) := by decide

/-- Program P1's first request, from its text to the frame (spec/95_test_vectors.md section 3): no buffer byte, one step. -/
theorem test_line_go : (match parseLine ['g', 'o', ' ', '0', 'x', '1', '5'] with
    | some (some l) => l.assemble
    | some none => none
    | none => none) = some ⟨0x41150004#32, []⟩ := by decide
theorem test_host_loads : got (Sys2Proof.core.run 3 (hosting [.write 0 .b32 0x00 0x41150004#64, .read 0 .b32 0x40, .read 0 .b32 0x30]))
    (·.reads) = some [⟨.b32, 0x30, 0x51204115#32⟩, ⟨.b32, 0x40, 5#32⟩] := by decide +kernel
theorem test_host_loads_past_frame : faultOf (Sys2Proof.core.run 2 (hosting [.write 0 .b32 0x00 0x41150004#64, .read 0 .b8 0x35])) =
    some (.valuelessRead 0x35) := by decide
theorem test_reset_value_load : got (step (hosting [.read 0 .b32 0x04])) (·.reads) = some [⟨.b32, 0x04, 0#32⟩] := by decide
theorem test_unwritten_operand : faultOf (step (hosting [.write 0 .b32 0x00 0x00000101#64])) = some (.valuelessRead 0x10) := by decide
theorem test_halfword_load : refusalOf (step (hosting [.read 0 .b16 0x04])) = some (.illegalAccess 0x04) := by decide
theorem test_last_buffer_word : got (step (hosting [.write 0 .b32 0x2C 0x44332211#64])) (·.reqBuf) =
    some [(28, 0x11#8), (29, 0x22#8), (30, 0x33#8)] := by decide

/-! ### Witnesses: states and operands that meet the hypotheses of the statements -/

theorem holding_holds (d : List Byte) : (holding d).BufHolds d := fun i _ => Memory.read_writeBytes_nil d i

theorem witness_DecodeInvertsEncode : (Instr.encode 0x41#8 0x15#8 1#5).WellFormed = true ∧ (Instr.illegalOp 1#8 2#8 7#3 31#5 15#4 4#4).WellFormed = true ∧
    Instr.nack0A.WellFormed = true := by decide

theorem witness_ReservedHeadersAreIllegal :
    (0x00000000#32).extractLsb' 0 4 = 0#4 ∧ 8#4 ≤ (0x00000008#32).extractLsb' 0 4 ∧ 8#4 ≤ (0x0015000F#32).extractLsb' 0 4 ∧
    (0x00000011#32).extractLsb' 4 4 ≠ 0#4 ∧ (0x00152002#32).extractLsb' 13 3 ≠ 0#3 := by decide

theorem witness_OperationMap : (0x00000101#32).extractLsb' 4 4 = 0#4 ∧ (0x00000101#32).extractLsb' 13 3 = 0#3 ∧
    (0x00000101#32).extractLsb' 0 4 = 0x1#4 ∧ (0x41150004#32).extractLsb' 13 3 = 0#3 ∧ (0x41150004#32).extractLsb' 0 4 = 0x4#4 ∧
    (0x00001F07#32).extractLsb' 13 3 = 0#3 ∧ (0x00001F07#32).extractLsb' 0 4 = 0x7#4 := by decide

theorem witness_StepRunsStoredHeader : ∃ (s : State) (i : Instr) (w : Word) (data : BitVec 64) (rest : List HostAction), i.WellFormed = true ∧
    encode i = .header w ∧ data.setWidth 32 = w ∧ s.host = .write 0 .b32 0x00 data :: rest ∧ s.busy = false :=
  ⟨hosting [.write 0 .b32 0x00 0x00160002#64], .validate 0#8 0x16#8 0#5, 0x00160002#32, 0x00160002#64, [], rfl, rfl, rfl, rfl, rfl⟩

theorem witness_StepRunsWireByte :
    (hosting [.functionByte 0x41#8]).busy = false ∧ decodeFunctionByte 0x41#8 = .ok .fnGo ∧
    decodeFunctionByte 0x47#8 = .error (.unknownFunctionByte 0x47#8) ∧ decodeAckByte 0x10#8 = .ok .ackReply ∧
    decodeAckByte 0x0B#8 = .error (.unknownAckByte 0x0B#8) := ⟨rfl, rfl, rfl, rfl, rfl⟩

theorem witness_ResetAbandonsTheOperation : ∃ (s : State) (rest : List HostAction), s.host = .reset :: rest ∧ s.busy = true :=
  ⟨{ hosting [.reset] with busy := true }, [], rfl, rfl⟩

theorem witness_StoredHeaderIsAnswered : ∃ (s t : State) (data : BitVec 64) (rest : List HostAction),
    s.host = .write 0 .b32 0x00 data :: rest ∧ step s = .next t := ⟨hosting [.write 0 .b32 0x00 0x00160002#64], _, _, _, rfl, rfl⟩

theorem witness_CrcResult : (holding []).BufHolds [] ∧ ([] : List Byte).length = (0#5).toNat ∧ (holding (List.replicate 31 0xFF#8)).BufHolds (List.replicate 31 0xFF#8) ∧
    (List.replicate 31 0xFF#8).length = (31#5).toNat := ⟨holding_holds _, rfl, holding_holds _, rfl⟩

/-- The shortest frame with its first byte changed, and the longest with its last. -/
theorem witness_SingleByteCorruptionIsDetected :
    (let body := [0x15#8, 0x41#8, 0x20#8]
     let frame := body ++ [(crc16 body).extractLsb' 0 8, (crc16 body).extractLsb' 8 8]
     3 ≤ body.length ∧ body.length ≤ 14 ∧ (5#5).toNat = frame.length ∧ 0 < frame.length ∧ frame[0]? ≠ some 0x17#8 ∧
       (holding (frame.set 0 0x17#8)).BufHolds (frame.set 0 0x17#8)) ∧
    (let body := List.replicate 14 0x10#8
     let frame := body ++ [(crc16 body).extractLsb' 0 8, (crc16 body).extractLsb' 8 8]
     3 ≤ body.length ∧ body.length ≤ 14 ∧ (16#5).toNat = frame.length ∧ 15 < frame.length ∧ frame[15]? ≠ some 0x00#8 ∧
       (holding (frame.set 15 0x00#8)).BufHolds (frame.set 15 0x00#8)) := by
  refine ⟨⟨by decide +kernel, by decide +kernel, by decide +kernel, by decide +kernel, by decide +kernel, holding_holds _⟩, ⟨by decide +kernel, by decide +kernel, by decide +kernel, by decide +kernel, by decide +kernel, holding_holds _⟩⟩

theorem witness_LookupUnknownCode : ∀ f ∈ ([0x00#8, 0x40#8, 0x47#8, 0x63#8, 0x66#8, 0x7F#8, 0x80#8, 0xFF#8] : List Byte),
    f &&& 0x7F#8 ∉ ([0x41#8, 0x42#8, 0x43#8, 0x44#8, 0x45#8, 0x46#8, 0x64#8, 0x65#8] : List Byte) := by decide

/-- The two ends of the valid addresses, the broadcast address, and an invalid neighbour of each. -/
theorem witness_valid_addresses : (∀ a ∈ ([0x00#8, 0x15#8, 0xF7#8] : List Byte), a = 0x00#8 ∨ (a.getLsbD 0 = true ∧ 0x15#8 ≤ a ∧ a ≤ 0xF7#8)) ∧
    ∀ a ∈ ([0x01#8, 0x13#8, 0x16#8, 0xF6#8, 0xF9#8] : List Byte), ¬(a = 0x00#8 ∨ (a.getLsbD 0 = true ∧ 0x15#8 ≤ a ∧ a ≤ 0xF7#8)) := by decide

/-- EncodeFrame with each of its length clauses; its address hypothesis is `witness_valid_addresses`. -/
theorem witness_EncodeFrame : ∀ p ∈ ([(0x41#8, []), (0x65#8, []), (0x44#8, [1#8, 2#8, 3#8]), (0x45#8, [1#8, 0#8]), (0x46#8, []),
    (0x64#8, List.replicate 11 0x10#8)] : List (Byte × List Byte)),
    (holding p.2).BufHolds p.2 ∧ (p.1 ∈ ([0x41#8, 0x42#8, 0x43#8, 0x65#8] : List Byte) ∧ p.2.length = 0 ∨ p.1 = 0x44#8 ∧ p.2.length = 3 ∨
      p.1 = 0x45#8 ∧ p.2.length = 2 ∨ p.1 ∈ ([0x46#8, 0x64#8] : List Byte) ∧ p.2.length ≤ 11) :=
  fun p hp => ⟨holding_holds _, (by decide : ∀ p ∈ ([(0x41#8, []), (0x65#8, []), (0x44#8, [1#8, 2#8, 3#8]), (0x45#8, [1#8, 0#8]), (0x46#8, []),
    (0x64#8, List.replicate 11 0x10#8)] : List (Byte × List Byte)), (p.1 ∈ ([0x41#8, 0x42#8, 0x43#8, 0x65#8] : List Byte) ∧ p.2.length = 0 ∨
      p.1 = 0x44#8 ∧ p.2.length = 3 ∨ p.1 = 0x45#8 ∧ p.2.length = 2 ∨ p.1 ∈ ([0x46#8, 0x64#8] : List Byte) ∧ p.2.length ≤ 11)) p hp⟩

theorem witness_PseudoInstructionFrames : ((.go 0x15#8, 0x41#8, 0) : Instr × Byte × Nat) ∈
    ([(.go 0x15#8, 0x41#8, 0), (.setdemand 0x15#8, 0x44#8, 3), (.readid 0x15#8 11#5, 0x46#8, (11#5).toNat)] : List (Instr × Byte × Nat)) ∧
    ∀ n, n ≤ 11 → (List.replicate n 1#8).length = n ∧ (holding (List.replicate n 1#8)).BufHolds (List.replicate n 1#8) :=
  ⟨List.mem_cons_self, fun _ _ => ⟨List.length_replicate, holding_holds _⟩⟩

theorem witness_LookupDescriptors : ((0x41#8, 0x00A14041#32) : Byte × Word) ∈ ([(0x41#8, 0x00A14041#32), (0xE5#8, 0x000828E5#32)] : List (Byte × Word)) :=
  List.mem_cons_self

/-- EncodeFailures: the error bit at 0xC1, an unknown code at 0x47 and 0x00, a fixed length missed by one, and 12 and 31 variable bytes; its
address clauses are `witness_valid_addresses`. -/
theorem witness_EncodeFailures : (0xC1#8).getLsbD 7 = true ∧ (0x47#8).getLsbD 7 = false ∧
    0x47#8 ∉ ([0x41#8, 0x42#8, 0x43#8, 0x44#8, 0x45#8, 0x46#8, 0x64#8, 0x65#8] : List Byte) ∧ 3 + (1#5).toNat + 2 ≠ (5#8).toNat ∧
    3 + (2#5).toNat + 2 ≠ (8#8).toNat ∧ 11 < (12#5).toNat ∧ 11 < (31#5).toNat := by decide

/-- DecodeMessage: the shortest reply (Go), and the longest (Read Identification), from spec/95_test_vectors.md section 2.4 with a correct CRC. -/
theorem witness_DecodeMessage :
    (holding [0x15#8, 0x41#8, 0x10#8, 0x51#8, 0x98#8]).BufHolds ([0x15#8, 0x41#8, 0x10#8] ++ [] ++ [0x51#8, 0x98#8]) ∧
    crc16 ([0x15#8, 0x41#8, 0x10#8] ++ []) = 0x98#8 ++ 0x51#8 ∧ (5#5).toNat = 5 + ([] : List Byte).length ∧
    (holding ([0x15#8, 0x46#8, 0x20#8] ++ List.replicate 11 0x10#8 ++ [0x8B#8, 0x6F#8])).BufHolds
      ([0x15#8, 0x46#8, 0x20#8] ++ List.replicate 11 0x10#8 ++ [0x8B#8, 0x6F#8]) ∧
    crc16 ([0x15#8, 0x46#8, 0x20#8] ++ List.replicate 11 0x10#8) = 0x6F#8 ++ 0x8B#8 ∧ (16#5).toNat = 5 + (List.replicate 11 0x10#8).length ∧
    (0x15#8).getLsbD 0 = true ∧ 0x15#8 ≤ 0x15#8 ∧ 0x15#8 ≤ 0xF7#8 :=
  ⟨holding_holds _, by decide +kernel, by decide +kernel, holding_holds _, by decide +kernel, by decide +kernel, by decide +kernel, by decide +kernel, by decide +kernel⟩
/-- An error reply of 7 bytes (spec/95_test_vectors.md section 2.5), with any expected address: the reply's own or the broadcast one. -/
theorem witness_DecodeMessage_error : crc16 ([0x21#8, 0xC3#8, 0x02#8] ++ [0xAA#8, 0xBB#8]) = 0x50#8 ++ 0x3B#8 ∧
    0xC3#8 &&& 0x7F#8 ∈ ([0x41#8, 0x42#8, 0x43#8, 0x44#8, 0x45#8, 0x46#8, 0x64#8, 0x65#8] : List Byte) ∧
    (∀ p ∈ ([(0x41#8, 5), (0x42#8, 5), (0x43#8, 6), (0x44#8, 8), (0x45#8, 9), (0x65#8, 5)] : List (Byte × Nat)), 0xC3#8 = p.1 → (7#5).toNat = p.2) ∧
    (0x00#8 = 0x00#8 ∨ 0x21#8 = 0x00#8) ∧ (0x21#8 = 0x00#8 ∨ 0x21#8 = 0x21#8) := by decide +kernel

/-- DecodeFailures: 4 and 17 bytes; a bad CRC; a good CRC with another address; an unknown code; a Status reply of 5 bytes. -/
theorem witness_DecodeFailures : (4#5).toNat < 5 ∧ 16 < (17#5).toNat ∧ crc16 [0x15#8, 0x41#8, 0x10#8] ≠ 0x00#8 ++ 0x00#8 ∧
    (crc16 [0x17#8, 0x41#8, 0x10#8] = 0x58#8 ++ 0xF0#8 ∧ ¬(0x15#8 = 0x00#8 ∨ 0x17#8 = 0x15#8)) ∧
    (crc16 [0x15#8, 0x47#8, 0x10#8] = 0x38#8 ++ 0x52#8 ∧
      0x47#8 &&& 0x7F#8 ∉ ([0x41#8, 0x42#8, 0x43#8, 0x44#8, 0x45#8, 0x46#8, 0x64#8, 0x65#8] : List Byte)) ∧
    (crc16 [0x15#8, 0x43#8, 0x10#8] = 0xF8#8 ++ 0x50#8 ∧ (5#5).toNat ≠ (6#8).toNat) := by decide +kernel
theorem witness_DecodeFailures_buffer : (holding [0x15#8, 0x43#8, 0x10#8, 0x50#8, 0xF8#8]).BufHolds ([0x15#8, 0x43#8, 0x10#8] ++ [] ++ [0x50#8, 0xF8#8]) ∧
    (5#5).toNat = 5 + ([] : List Byte).length := ⟨holding_holds _, rfl⟩

/-- EncodeDecodeRoundTrip, for each of its clauses: Go and Status to 0x15, and Go to the broadcast address. -/
theorem witness_EncodeDecodeRoundTrip : ∀ p ∈ ([(0x41#8, 0x15#8), (0x43#8, 0x15#8), (0x41#8, 0x00#8)] : List (Byte × Byte)),
    ∃ t s' : State, (holding []).BufHolds [] ∧ exec (.encode p.1 p.2 0#5) (holding []) = .next t ∧ t.rspHdr = some 0x00000400#32 ∧
      t.olen = some ((5#5).setWidth 32) ∧ ∀ i, i < (5#5).toNat → Memory.read s'.reqBuf i = Memory.read t.obuf i := by
  intro p hp
  simp only [List.mem_cons, List.not_mem_nil, or_false] at hp
  rcases hp with rfl | rfl | rfl
  · exact ⟨_, { State.reset with reqBuf := _ }, holding_holds _, rfl, rfl, rfl, fun _ _ => rfl⟩
  · exact ⟨_, { State.reset with reqBuf := _ }, holding_holds _, rfl, rfl, rfl, fun _ _ => rfl⟩
  · exact ⟨_, { State.reset with reqBuf := _ }, holding_holds _, rfl, rfl, rfl, fun _ _ => rfl⟩

theorem witness_ClassifyAckResult : (0x01#8 ≤ 0x01#8 ∧ 0x01#8 ≤ 0x0A#8) ∧ (0x01#8 ≤ 0x0A#8 ∧ 0x0A#8 ≤ 0x0A#8) ∧ ¬(0x01#8 ≤ 0x00#8 ∧ 0x00#8 ≤ 0x0A#8) ∧
    ¬(0x01#8 ≤ 0x0B#8 ∧ 0x0B#8 ≤ 0x0A#8) ∧ 0x0B#8 ≠ 0x10#8 ∧ 0x0B#8 ≠ 0x20#8 := by decide

theorem witness_ClassifySensorNotApplicable : (0xC5#8 ≠ 0x45#8 ∨ (4#5).toNat ≤ Config.sensorFaultIndex.val) ∧
    (0x45#8 ≠ 0x45#8 ∨ (0#5).toNat ≤ Config.sensorFaultIndex.val) := ⟨.inl (by decide), .inr (Nat.zero_le _)⟩

/-- A payload of four equal bytes reaches the fault byte, whichever it is. -/
theorem payload_byte (b : Byte) : Config.sensorFaultIndex.val < (4#5).toNat ∧
    Memory.read (holding [b, b, b, b]).reqBuf Config.sensorFaultIndex.val = some b := by
  have h : ∀ i : Fin 4, Memory.read (holding [b, b, b, b]).reqBuf i.val = some b := by
    intro i
    rw [show (holding [b, b, b, b]).reqBuf = Memory.writeBytes [] 0 [b, b, b, b] from rfl, Memory.read_writeBytes_nil]
    match i with
    | 0 => rfl
    | 1 => rfl
    | 2 => rfl
    | 3 => rfl
  exact ⟨Config.sensorFaultIndex.isLt, h _⟩

/-- ClassifySensorFaultByte: the no-fault value; a byte that is neither; and, for each end of the range, the defined fault if the OPEN table
defines it (no proof can know whether it does). -/
theorem witness_ClassifySensorFaultByte :
    (∃ (b : Byte) (s : State), Config.sensorFaultIndex.val < (4#5).toNat ∧ Memory.read s.reqBuf Config.sensorFaultIndex.val = some b ∧ b = sensorNoFault) ∧
    (∃ (b : Byte) (s : State), Config.sensorFaultIndex.val < (4#5).toNat ∧ Memory.read s.reqBuf Config.sensorFaultIndex.val = some b ∧ b ≠ sensorNoFault ∧
      sensorFaultPresent b = false) ∧
    (∀ b ∈ ([0x21#8, 0x44#8] : List Byte), Config.sensorFaultDefined b = true →
      ∃ s : State, Config.sensorFaultIndex.val < (4#5).toNat ∧ Memory.read s.reqBuf Config.sensorFaultIndex.val = some b ∧ sensorFaultPresent b = true) := by
  refine ⟨⟨sensorNoFault, holding _, (payload_byte sensorNoFault).1, (payload_byte sensorNoFault).2, rfl⟩, ?_, ?_⟩
  · by_cases h : sensorNoFault = 0x20#8
    · exact ⟨0x45#8, holding _, (payload_byte 0x45#8).1, (payload_byte 0x45#8).2, by rw [h]; decide, rfl⟩
    · exact ⟨0x20#8, holding _, (payload_byte 0x20#8).1, (payload_byte 0x20#8).2, fun h' => h h'.symm, rfl⟩
  · intro b hb hd
    refine ⟨_, (payload_byte b).1, (payload_byte b).2, ?_⟩
    have : inSensorFaultRange b = true := (by decide : ∀ b ∈ ([0x21#8, 0x44#8] : List Byte), inSensorFaultRange b = true) b hb
    simp [sensorFaultPresent, this, hd]

theorem witness_SensorCodesOutsideTheRange : ¬(0x21#8 ≤ 0x20#8 ∧ 0x20#8 ≤ 0x44#8) ∧ ¬(0x21#8 ≤ 0x45#8 ∧ 0x45#8 ≤ 0x44#8) ∧
    (0x20#8 ≠ sensorNoFault ∨ 0x45#8 ≠ sensorNoFault) := by
  refine ⟨by decide, by decide, ?_⟩
  by_cases h : 0x20#8 = sensorNoFault
  · exact .inr (by rw [← h]; decide)
  · exact .inl h

/-- OutcomeNames: a SUCCESS ack, each end of the NACK codes and a gap; a sensor step not inspected, without a fault, and failed. -/
theorem witness_OutcomeNames_ack : ∀ k : Byte, ∃ t, exec (.classifyAck 0#8 k 0#5) State.reset = .next t := fun _ => ⟨_, rfl⟩
theorem witness_OutcomeNames_sensor : (∃ u, exec (.classifySensor 0x43#8 0#8 0#5) State.reset = .next u) ∧
    ∀ b, ∃ u, exec (.classifySensor 0x45#8 0#8 4#5) (holding [b, b, b, b]) = .next u :=
  ⟨⟨_, rfl⟩, fun b => ⟨_, execClassifySensor_byte 0#8 b (payload_byte b).1 (payload_byte b).2⟩⟩

/-- A reply whose sensor step failed is a table gap and not Accepted (R209); with both steps run and no fault it is. -/
theorem test_failed_sensor_step_is_no_acceptance : accepted (some 0x00000000#32) true none = false ∧ tableGap (some 0x00000000#32) true none = true ∧
    accepted (some 0x00000000#32) true (some 0x00000001#32) = true ∧ accepted (some 0x00000000#32) true (some 0x00002102#32) = false ∧
    faultClassified (some 0x00002102#32) = true := by decide

theorem witness_OperationFrame : (∃ t, exec (.crc 0#8 0#8 1#5) (holding [0xFF#8]) = .next t) ∧ ∃ t, exec .nack04 State.reset = .next t :=
  ⟨⟨_, rfl⟩, ⟨_, rfl⟩⟩

/-- The first byte without a value at index 0 and at the last index below LEN, with each length the clauses admit. -/
theorem witness_ValuelessOperandFaults : 0 < (5#5).toNat ∧ Memory.read State.reset.reqBuf 0 = none ∧ 10 < (11#5).toNat ∧
    Memory.read (holding (List.replicate 10 1#8)).reqBuf 10 = none ∧
    (∀ j, j < 10 → (Memory.read (holding (List.replicate 10 1#8)).reqBuf j).isSome = true) ∧ (11#5).toNat ≤ 11 ∧ 5 ≤ (11#5).toNat ∧
    (11#5).toNat ≤ 16 := by decide
theorem witness_ValuelessOperandFaults_fixed : 2 < (3#5).toNat ∧ (3#5).toNat = 3 ∧ Memory.read (holding [1#8, 2#8]).reqBuf 2 = none ∧
    (∀ j, j < 2 → (Memory.read (holding [1#8, 2#8]).reqBuf j).isSome = true) ∧ 1 < (2#5).toNat ∧ (2#5).toNat = 2 ∧
    Memory.read (holding [1#8]).reqBuf 1 = none ∧ (∀ j, j < 1 → (Memory.read (holding [1#8]).reqBuf j).isSome = true) := by decide
theorem witness_ValuelessOperandFaults_sensor : Config.sensorFaultIndex.val < (4#5).toNat ∧
    Memory.read State.reset.reqBuf Config.sensorFaultIndex.val = none := ⟨Config.sensorFaultIndex.isLt, rfl⟩

theorem witness_ResponseDependsOnRequestOnly :
    (∀ k, k < lenOf (.crc 0#8 0#8 1#5) → Memory.read (holding [1#8]).reqBuf k = Memory.read (holding [1#8, 2#8]).reqBuf k) ∧
    (∃ t, exec (.crc 0#8 0#8 1#5) (holding [1#8]) = .next t) ∧ ∃ r, exec (.crc 0#8 0#8 1#5) State.reset = .fault r := by
  refine ⟨by decide, ⟨_, rfl⟩, ⟨_, rfl⟩⟩

/-- Every register holds a value. -/
def full (acts : List HostAction) : State :=
  { hosting acts with
    reqHdr := some 1#32, rspValid := true, rspHdr := some 1#32, rspErr := some 1#32, olen := some 1#32, crcRes := some 1#32, desc := some 1#32
    msgHdr := some 1#32, msgCrc := some 1#32, ackRes := some 1#32, sensRes := some 1#32
    reqBuf := Memory.writeBytes [] 0 (List.replicate 31 5#8), obuf := Memory.writeBytes [] 0 (List.replicate 16 6#8)
    mData := Memory.writeBytes [] 0 (List.replicate 11 7#8) }

theorem witness_RegisterLoads : (full [.read 0 .b32 0x00]).reqHdr = some 1#32 ∧ (full []).rspValid = true ∧ (full []).rspHdr = some 1#32 ∧
    (full []).rspErr = some 1#32 ∧ (full []).olen = some 1#32 ∧ (full []).crcRes = some 1#32 ∧ (full []).desc = some 1#32 ∧
    (full []).msgHdr = some 1#32 ∧ (full []).msgCrc = some 1#32 ∧ (full []).ackRes = some 1#32 ∧ (full []).sensRes = some 1#32 ∧
    (full [.read 0 .b32 0x00]).host = .read 0 .b32 0x00 :: [] := by decide

theorem witness_ByteLoads : Memory.read (full []).reqBuf 0 = some 5#8 ∧ Memory.read (full []).reqBuf 30 = some 5#8 ∧
    Memory.read (full []).obuf 0 = some 6#8 ∧ Memory.read (full []).obuf 15 = some 6#8 ∧ Memory.read (full []).mData 0 = some 7#8 ∧
    Memory.read (full []).mData 10 = some 7#8 ∧ (full []).rspValid = true := by decide

theorem witness_ValuelessLoadsFault : State.reset.reqHdr = none ∧ State.reset.rspHdr = none ∧ State.reset.rspErr = none ∧ State.reset.olen = none ∧
    State.reset.crcRes = none ∧ State.reset.desc = none ∧ State.reset.msgHdr = none ∧ State.reset.msgCrc = none ∧ State.reset.ackRes = none ∧
    State.reset.sensRes = none ∧ Memory.read State.reset.reqBuf 30 = none ∧ Memory.read State.reset.obuf 15 = none ∧
    Memory.read State.reset.mData 10 = none := by decide

/-- Words in which a byte holds no value: the last byte of a word, and the last word of each array. -/
theorem witness_ValuelessLoadsFault_words : Memory.read (holding [1#8, 2#8, 3#8]).reqBuf 3 = none ∧
    (∀ j, 4 * 0 ≤ j → j < 3 → (Memory.read (holding [1#8, 2#8, 3#8]).reqBuf j).isSome = true) ∧
    (4 * 7 ≤ 30 ∧ 30 < 4 * 7 + 4 ∧ 30 < 31) ∧ (4 * 3 ≤ 15 ∧ 15 < 4 * 3 + 4) ∧ (4 * 2 ≤ 10 ∧ 10 < 4 * 2 + 4 ∧ 10 < 11) :=
  ⟨rfl, fun j _ h => (by decide : ∀ j, j < 3 → (Memory.read (holding [1#8, 2#8, 3#8]).reqBuf j).isSome = true) j h, by decide, by decide, by decide⟩
theorem test_frame_word_with_valueless_bytes : faultOf (Sys2Proof.core.run 2 (hosting [.write 0 .b32 0x00 0x41150004#64, .read 0 .b32 0x34])) =
    some (.valuelessRead 0x35) := by decide

theorem witness_ReservedPlacesReadZero : ((.b8, 0x2F) : Width × Nat) ∈ ([(.b8, 0x2F), (.b8, 0x5F), (.b32, 0x68), (.b32, 0x6C)] : List (Width × Nat)) ∧
    (hosting [.read 0 .b8 0x2F]).host = .read 0 .b8 0x2F :: [] := by decide

theorem witness_ReadOnlyStoresHaveNoEffect : (hosting [.write 0 .b32 0x7C 1#64]).host = .write 0 .b32 0x7C 1#64 :: [] ∧
    (hosting [.write 0 .b8 0x2F 1#64]).host = .write 0 .b8 0x2F 1#64 :: [] ∧ (0x2F ≤ 0x3F ∧ 0x3F ≤ 0x3F) ∧ (0x54 ≤ 0x54 ∧ 0x5F ≤ 0x5F) := by decide

/-- IllegalAccessesRefused: an access on either side of each bound. -/
theorem witness_IllegalAccessesRefused : refusalOf (step (hosting [.read 0 .b8 0x0F])) = some (.illegalAccess 0x0F) ∧
    refusalOf (step (full [.read 0 .b8 0x10])) = none ∧ refusalOf (step (full [.read 0 .b8 0x3F])) = none ∧
    refusalOf (step (full [.read 0 .b8 0x40])) = some (.illegalAccess 0x40) ∧ refusalOf (step (full [.read 0 .b32 0x7C])) = none ∧
    refusalOf (step (full [.read 0 .b32 0x80])) = some (.illegalAccess 0x80) ∧ refusalOf (step (full [.write 0 .b32 0x02 0#64])) = some (.illegalAccess 0x02) := by
  decide

/-- Which stop is reported where two apply (log entry 19). -/
theorem test_order_of_stops : refusalOf (step { hosting [.write 0 .b8 0x00 0#64] with busy := true }) = some (.illegalAccess 0x00) ∧
    refusalOf (step (hosting [.read 1 .b32 0x08])) = some (.secondHost 1) ∧ refusalOf (step (hosting [.read 0 .b16 0x08])) = some (.illegalAccess 0x08) := by
  decide

theorem witness_BufferByteStore : ∃ (s : State) (data : BitVec 64), 30 < 31 ∧ s.busy = false ∧ s.host = .write 0 .b8 (0x10 + 30) data :: [] :=
  ⟨hosting [.write 0 .b8 (0x10 + 30) 7#64], 7#64, by decide, rfl, rfl⟩

/-- The last word of each array; the last ones of REQ_BUF and M_DATA end in a reserved byte. -/
theorem witness_BufferWordAccess : (∃ (s : State) (data : BitVec 64), 7 < 8 ∧ s.busy = false ∧ s.host = .write 0 .b32 (0x10 + 4 * 7) data :: []) ∧
    (Memory.read (full []).reqBuf (4 * 7) = some 5#8 ∧ Memory.read (full []).reqBuf (4 * 7 + 1) = some 5#8 ∧
      Memory.read (full []).reqBuf (4 * 7 + 2) = some 5#8) ∧ Memory.read (full []).reqBuf (4 * 6 + 3) = some 5#8 ∧
    (full [.read 0 .b32 (0x10 + 4 * 7)]).host = .read 0 .b32 (0x10 + 4 * 7) :: [] :=
  ⟨⟨hosting [.write 0 .b32 (0x10 + 4 * 7) 7#64], 7#64, by decide, rfl, rfl⟩, by decide, by decide, rfl⟩
theorem witness_BufferWordAccess_response : (full []).rspValid = true ∧
    (Memory.read (full []).obuf (4 * 3) = some 6#8 ∧ Memory.read (full []).obuf (4 * 3 + 1) = some 6#8 ∧
      Memory.read (full []).obuf (4 * 3 + 2) = some 6#8 ∧ Memory.read (full []).obuf (4 * 3 + 3) = some 6#8) ∧
    (Memory.read (full []).mData (4 * 2) = some 7#8 ∧ Memory.read (full []).mData (4 * 2 + 1) = some 7#8 ∧
      Memory.read (full []).mData (4 * 2 + 2) = some 7#8) ∧ Memory.read (full []).mData (4 * 1 + 3) = some 7#8 := by decide
theorem test_last_message_word : got (step (full [.read 0 .b32 0x5C])) (·.reads) = some [⟨.b32, 0x5C, 0x00070707#32⟩] := by decide

theorem witness_LoadsAreIdempotent : ∃ s t : State, s.host = .read 0 .b32 0x04 :: .read 0 .b32 0x04 :: [] ∧ step s = .next t :=
  ⟨hosting [.read 0 .b32 0x04, .read 0 .b32 0x04], _, rfl, rfl⟩

theorem witness_TimingConstants : (hosting [.read 0 .b32 0x7C]).host = .read 0 .b32 0x7C :: [] ∧
    ((0x7C, 1000000#32) : Nat × Word) ∈ ([(0x70, 7#32), (0x74, 4000#32), (0x78, 10000#32), (0x7C, 1000000#32)] : List (Nat × Word)) := by decide

theorem witness_ControlStatusLoad : (full [.read 0 .b32 0x04]).host = .read 0 .b32 0x04 :: [] := rfl

theorem witness_RequestStoresWhileBusyRefused : ∃ s : State, s.busy = true ∧ s.host = .write 0 .b32 0x00 1#64 :: [] :=
  ⟨{ hosting [.write 0 .b32 0x00 1#64] with busy := true }, rfl, rfl⟩
theorem witness_RequestStoresWhileBusyRefused_buffer : ∃ s s' : State, s.busy = true ∧ s.host = .write 0 .b8 (0x10 + 30) 1#64 :: [] ∧
    s'.busy = true ∧ s'.host = .write 0 .b32 (0x10 + 4 * 7) 1#64 :: [] :=
  ⟨{ hosting [.write 0 .b8 (0x10 + 30) 1#64] with busy := true }, { hosting [.write 0 .b32 (0x10 + 4 * 7) 1#64] with busy := true }, rfl, rfl, rfl, rfl⟩

/-- A response register with a value while RSP_VALID is 0. -/
theorem witness_ResponseLoadsBeforeValidRefused : ∃ s : State, s.rspValid = false ∧ s.rspHdr = some 1#32 ∧ s.sensRes = some 1#32 ∧
    Memory.read s.obuf 15 = some 6#8 ∧ Memory.read s.mData 10 = some 7#8 ∧ s.host = .read 0 .b32 0x08 :: [] :=
  ⟨{ full [.read 0 .b32 0x08] with rspValid := false }, by decide⟩

theorem witness_SecondHostRefused : ∃ s s' : State, s.host = .read 1 .b32 0x04 :: [] ∧ s'.host = .write 1 .b32 0x04 0#64 :: [] :=
  ⟨hosting [.read 1 .b32 0x04], hosting [.write 1 .b32 0x04 0#64], rfl, rfl⟩

/-- RunEndsWithLastResponse: a last request with a load after it, and a request with another to come. -/
theorem witness_RunEndsWithLastResponse : ∃ s s' t t' : State,
    s.host = .write 0 .b32 0x00 0x00160002#64 :: [.read 0 .b32 0x08] ∧ step s = .next t ∧ (∀ b ∈ [HostAction.read 0 .b32 0x08], b.startsRequest = false) ∧
    s'.host = .write 0 .b32 0x00 0x00160002#64 :: [.ackByte 0x10#8] ∧ step s' = .next t' ∧
    (∃ b ∈ [HostAction.ackByte 0x10#8], b.startsRequest = true) ∧ (HostAction.write 0 .b32 0x00 0x00160002#64).startsRequest = true :=
  ⟨hosting [.write 0 .b32 0x00 0x00160002#64, .read 0 .b32 0x08], hosting [.write 0 .b32 0x00 0x00160002#64, .ackByte 0x10#8], _, _,
   rfl, rfl, by decide, rfl, rfl, by decide, rfl⟩
/-- The end of program P4 (spec/95_test_vectors.md section 3), with loads before, between and after its requests: only the one between is
observed (R260). -/
theorem test_observation_of_last_request : (runObservation 5 (hosting [.read 0 .b32 0x70, .write 0 .b32 0x00 0xC1000003#64, .read 0 .b32 0x48,
    .write 0 .b32 0x00 0x00160002#64, .read 0 .b32 0x08])).map (fun o => (o.rspHdr, o.rspErr, o.desc, o.reads)) =
    some (some 0x00000201#32, some 0x00000016#32, none, [[⟨.b32, 0x48, 0x000828C1#32⟩]]) := by decide

/-- The state after `crc [0xFF]` (spec/95_test_vectors.md section 2.1), with another request pending, meets the invariant, and its step
goes on. -/
theorem witness_StepKeepsInvariant : ∃ s t : State, s.Inv ∧ step s = .next t := by
  refine ⟨{ hosting [.write 0 .b32 0x00 0x00160002#64] with
    reqHdr := some 0x00000101#32, reqBuf := [(0, 0xFF#8)], rspValid := true, rspHdr := some 0x00000100#32, rspErr := some 0#32
    crcRes := some 0x000000FF#32 }, _, ?_, rfl⟩
  exact
    { idle := rfl
      reqBufForm := by decide
      obufForm := by decide
      mDataForm := by decide
      quiet := fun h => by simp at h
      responded := fun _ => ⟨_, _, _, rfl, rfl, rfl, by decide, fun _ => ⟨rfl, fun _ => rfl⟩, fun h => absurd rfl h, fun _ => rfl,
        fun _ => ⟨rfl, rfl, fun _ => rfl⟩, fun _ => rfl, fun _ => rfl⟩
      rspHdrBits := fun h hh => by cases hh; decide
      failed := fun h hh hs => by cases hh; exact absurd (by decide) hs
      okNoError := fun h _ _ => rfl
      encGroup := fun n hn => by cases hn
      crcBits := fun w hw => by cases hw; decide
      descBits := fun w hw => by cases hw
      msgGroup := fun w hw => by cases hw
      ackBits := fun w hw => by cases hw
      sensBits := fun w hw => by cases hw }

theorem witness_AssembledRequestRuns : ∃ (s : State) (r : Request), r.bytes.length = 31 ∧ s.busy = false ∧ s.host = r.actions ++ [] :=
  ⟨hosting (Request.actions ⟨0x00001F01#32, List.replicate 31 0xFF#8⟩ ++ []), ⟨0x00001F01#32, List.replicate 31 0xFF#8⟩, rfl, rfl, rfl⟩

end Sys2Proof.Tests
end

namespace Sys2Proof.Machine

/-! ### 32-bit loads of the register window (spec/10_state.md R23; spec/20_memory.md R54, R55) -/

/-- The converse of `observe_next`: a value is recorded, where a response register asks for RSP_VALID = 1. -/
theorem observe_ok {w : Width} {off : Nat} {isResponse : Bool} {x : Word} {s : State}
    (hvalid : isResponse = true → s.rspValid = true) :
    s.observe w off isResponse (.ok x) = .next { s with reads := ⟨w, off, x⟩ :: s.reads } := by
  cases isResponse with
  | false => rfl
  | true => simp [State.observe, hvalid]

/-- A 32-bit load of an aligned register place looks at that place alone. -/
theorem hostRead_reg32 {off : Nat} {r : Reg32} (s : State) (haligned : off % 4 = 0) (hplace : reg32At off = some r) :
    hostRead .b32 off s = s.observe .b32 off r.isResponse (valueAt off (s.readReg32 r)) := by
  simp [hostRead, haligned, hplace]

/-- A 32-bit load of a register place that holds `v` records `v` and changes nothing else. -/
theorem step_loadReg32 {s : State} {off : Nat} {rest : List HostAction} {r : Reg32} {v : Word}
    (hhost : s.host = .read 0 .b32 off :: rest) (haligned : off % 4 = 0) (hplace : reg32At off = some r)
    (hvalue : s.readReg32 r = some v) (hvalid : r.isResponse = true → s.rspValid = true) :
    step s = .next { s with host := rest, reads := ⟨.b32, off, v⟩ :: s.reads } := by
  have hread : State.readReg32 { s with host := rest } r = some v := (readReg32_host s rest s.reads r).trans hvalue
  calc step s
      = hostRead .b32 off { s with host := rest } := step_of_host hhost
    _ = State.observe .b32 off r.isResponse (.ok v) { s with host := rest } := by
      rw [hostRead_reg32 _ haligned hplace, hread, valueAt]
    _ = .next { s with host := rest, reads := ⟨.b32, off, v⟩ :: s.reads } := observe_ok hvalid

/-- Settles O49: each timing constant is a register place that holds its value in every state and is no response register. -/
theorem timingConstants : Obligations.TimingConstants := by
  intro p hp s rest hhost
  simp only [List.mem_cons, List.not_mem_nil, or_false] at hp
  obtain rfl | rfl | rfl | rfl := hp
  · exact step_loadReg32 (r := .tIdleHalfchars) hhost rfl rfl rfl nofun
  · exact step_loadReg32 (r := .tMinReplyUs) hhost rfl rfl rfl nofun
  · exact step_loadReg32 (r := .tMaxReplyUs) hhost rfl rfl rfl nofun
  · exact step_loadReg32 (r := .tMaxStoreUs) hhost rfl rfl rfl nofun

end Sys2Proof.Machine

namespace Sys2Proof.Machine

/-! ### Reserved headers (spec/30_encoding.md R74; spec/60_exceptions.md R221) -/

/-- A reserved header in the words of R74. -/
theorem reservedHeader_iff {rsv1 : BitVec 3} {rsv0 op : BitVec 4} :
    reservedHeader rsv1 rsv0 op = true ↔ op = 0#4 ∨ 8#4 ≤ op ∨ rsv0 ≠ 0#4 ∨ rsv1 ≠ 0#3 := by
  simp [reservedHeader, or_assoc]

/-- The operation map holds no ILLEGAL_OP: its seven operations are others, and so are those R84 names. -/
theorem decodeOp_ne_illegalOp (f a : Byte) (len : BitVec 5) (op : BitVec 4) {f' a' : Byte} {rsv1 : BitVec 3} {len' : BitVec 5}
    {rsv0 op' : BitVec 4} : decodeOp f a len op ≠ some (.illegalOp f' a' rsv1 len' rsv0 op') := by
  have hencode : decodeEncode f a len ≠ .illegalOp f' a' rsv1 len' rsv0 op' := by
    unfold decodeEncode
    repeat' split
    all_goals nofun
  by_cases hop : op = 0x4#4
  · subst hop
    exact fun h => hencode (Option.some.inj h)
  · simp only [decodeOp, if_neg hop]
    repeat' split
    all_goals nofun

/-- A reserved header is the ILLEGAL_OP of its fields. -/
theorem decodeFields_of_reserved (f a : Byte) {rsv1 : BitVec 3} (len : BitVec 5) {rsv0 op : BitVec 4}
    (h : reservedHeader rsv1 rsv0 op = true) : decodeFields f a rsv1 len rsv0 op = .illegalOp f a rsv1 len rsv0 op := by
  unfold decodeFields
  split
  next hzero =>
    obtain ⟨rfl, rfl⟩ := hzero
    have hnone : decodeOp f a len op = none := decodeOp_none.mpr (by simpa [reservedHeader_iff] using h)
    rw [hnone, Option.getD_none]
  next => rfl

/-- A header that is not reserved is in the operation map. -/
theorem decodeOp_of_not_reserved (f a : Byte) {rsv1 : BitVec 3} (len : BitVec 5) {rsv0 op : BitVec 4}
    (h : ¬reservedHeader rsv1 rsv0 op = true) : decodeOp f a len op = some (decodeFields f a rsv1 len rsv0 op) := by
  simp only [reservedHeader_iff, not_or, not_not] at h
  obtain ⟨hop0, hop8, rfl, rfl⟩ := h
  obtain ⟨i, hi⟩ := Option.ne_none_iff_exists'.mp (mt (decodeOp_none (f := f) (a := a) (len := len)).mp (not_or.mpr ⟨hop0, hop8⟩))
  simp [decodeFields, hi]

/-- Exactly the reserved headers are ILLEGAL_OP (R74). -/
theorem decodeFields_illegalOp_iff {f a : Byte} {rsv1 : BitVec 3} {len : BitVec 5} {rsv0 op : BitVec 4} :
    (∃ f' a' rsv1' len' rsv0' op', decodeFields f a rsv1 len rsv0 op = .illegalOp f' a' rsv1' len' rsv0' op') ↔
      reservedHeader rsv1 rsv0 op = true := by
  constructor
  · rintro ⟨f', a', rsv1', len', rsv0', op', hillegal⟩
    by_contra hlegal
    exact decodeOp_ne_illegalOp f a len op (hillegal ▸ decodeOp_of_not_reserved f a len hlegal)
  · exact fun h => ⟨_, _, _, _, _, _, decodeFields_of_reserved f a len h⟩

/-- ILLEGAL_OP completes in every state, with the failure of R221. -/
theorem exec_illegalOp_completes (f a : Byte) (rsv1 : BitVec 3) (len : BitVec 5) (rsv0 op : BitVec 4) (s : State) :
    ∃ t, exec (.illegalOp f a rsv1 len rsv0 op) s = .next t ∧
      t.Responds (rspHdrWord op false .illegalOp) (wordOfBytes (op.setWidth 8) (rsv1 ++ len) (rsv0 ++ op) 0#8) ∧
      t.NoOutput ∧ s.SameRequest t :=
  ⟨_, rfl, respond_responds _ _ _, respond_failed_noOutput _ _ _, respond_sameRequest _ _ _⟩

/-- RSP_HDR of a reserved header: RES_OP its OP, RETRY 0, STATUS 0xF. -/
theorem rspHdrWord_illegalOp (op : BitVec 4) : rspHdrWord op false .illegalOp = 0#20 ++ op ++ 0x0F#8 := by
  revert op; decide

/-- RSP_ERR of a reserved header `w`: E0 its OP, E1 and E2 its low half, E3 zero. -/
theorem wordOfBytes_illegalOp (w : Word) :
    wordOfBytes ((opField w).setWidth 8) (rsv1Field w ++ lenField w) (rsv0Field w ++ opField w) 0#8 =
      0#8 ++ w.extractLsb' 0 8 ++ w.extractLsb' 8 8 ++ (0#4 ++ w.extractLsb' 0 4) := by
  have he0 : (opField w).setWidth 8 = 0#4 ++ w.extractLsb' 0 4 := BitVec.setWidth_eq_append (by decide)
  have he1 : rsv1Field w ++ lenField w = w.extractLsb' 8 8 := BitVec.extractLsb'_append_extractLsb'_eq_extractLsb' (by decide)
  have he2 : rsv0Field w ++ opField w = w.extractLsb' 0 8 := BitVec.extractLsb'_append_extractLsb'_eq_extractLsb' (by decide)
  rw [he0, he1, he2, wordOfBytes]

/-- Settles O4: the decoder's test of the reserved fields is R74's, and ILLEGAL_OP's failure is put together from the fields of the header. -/
theorem reservedHeadersAreIllegal : Obligations.ReservedHeadersAreIllegal := by
  refine ⟨fun w => decodeFields_illegalOp_iff.trans reservedHeader_iff, fun w s hreserved => ?_⟩
  have hdecode : decodeHeader w = .illegalOp (fField w) (aField w) (rsv1Field w) (lenField w) (rsv0Field w) (opField w) :=
    decodeFields_of_reserved _ _ _ (reservedHeader_iff.mpr hreserved)
  have hdone := exec_illegalOp_completes (fField w) (aField w) (rsv1Field w) (lenField w) (rsv0Field w) (opField w) s
  rwa [← hdecode, rspHdrWord_illegalOp, wordOfBytes_illegalOp] at hdone

/-! ### Pseudo-instructions (spec/30_encoding.md R84) -/

/-- Settles O6: each arm of a pseudo-instruction runs the operation of its ENCODE, and its line expands to the line of that ENCODE, which
stands for itself. -/
theorem pseudoInstructionsExpand : Obligations.PseudoInstructionsExpand :=
  ⟨fun _ _ _ => ⟨rfl, rfl, rfl, rfl, rfl, rfl, rfl, rfl⟩, fun _ _ _ _ _ => ⟨rfl, rfl, rfl, rfl, rfl, rfl, rfl, rfl⟩⟩

end Sys2Proof.Machine

namespace Sys2Proof.Machine

/-! ### The CRC algorithm (spec/40_crc.md R100) -/

/-- The model's count of rounds is the iterate of the one round. -/
theorem crcRounds_eq_iterate (n : Nat) (acc : Half) : crcRounds n acc = crcRound^[n] acc := by
  induction n generalizing acc with
  | zero => rfl
  | succ n ih => rw [crcRounds, ih, Function.iterate_succ_apply]

/-- The CRC of no byte is the start value. -/
@[simp] theorem crc16_nil : crc16 [] = crcInit := rfl

/-- One more byte at the end is one more byte step on the accumulator. -/
theorem crc16_append_singleton (s : List Byte) (b : Byte) : crc16 (s ++ [b]) = crcByte (crc16 s) b :=
  crcFrom_append crcInit s [b]

/-- Settles O12: the bytes are taken from the left, so the last one is stepped from the CRC of those before it, and its rounds are the
iterate of one round. -/
theorem crcAlgorithm : Obligations.CrcAlgorithm := by
  refine ⟨crc16_nil, fun s b => ?_⟩
  calc crc16 (s ++ [b])
    _ = crcByte (crc16 s) b := crc16_append_singleton s b
    _ = crcRound^[8] (crc16 s ^^^ b.setWidth 16) := crcRounds_eq_iterate 8 _

end Sys2Proof.Machine

namespace Sys2Proof.Machine

/-! ### The lookup of a code in the catalog (spec/41_function_catalog.md R124, R125) -/

/-- Where the catalog answers, the result of LOOKUP is that descriptor. -/
theorem lookupResult_of_some {f : Byte} {r : LookupAnswer} (h : lookup f = some r) : lookupResult f = .done false (.desc r.word) := by
  simp [lookupResult, h]

/-- A result of group DESC leaves its word there. -/
@[simp] theorem respond_done_desc (op : BitVec 4) (retry : Bool) (w : Word) (s : State) :
    (s.respond op (.done retry (.desc w))).desc = some w := rfl

/-- Where the catalog answers, the lookup completes with that descriptor in DESC and nothing else. -/
theorem lookupOp_completes {f : Byte} {r : LookupAnswer} (h : lookup f = some r) (s : State) :
    ∃ t, lookupOp f s = .next t ∧ t.desc = some r.word ∧ t.Responds 0x00000300#32 0#32 ∧ t.OnlyGroupOf 0x3#4 ∧ s.SameRequest t := by
  refine ⟨s.respond 0x3#4 (lookupResult f), rfl, ?_, ?_, respond_onlyGroupOf s (lookupResult_fits f), respond_sameRequest _ _ s⟩
  · rw [lookupResult_of_some h, respond_done_desc]
  · rw [lookupResult_of_some h]
    exact respond_responds 0x3#4 (.done false (.desc r.word)) s

/-- Settles O18: the catalog answers each of the sixteen codes with the descriptor of that word, which is read off the ROM row by row, and
LOOKUP completes with what the catalog answers. -/
theorem lookupDescriptors : Obligations.LookupDescriptors := by
  intro p hp a len s
  have hword : (lookup p.1).map LookupAnswer.word = some p.2 := by
    simp only [List.mem_cons, List.not_mem_nil, or_false] at hp
    obtain rfl | rfl | rfl | rfl | rfl | rfl | rfl | rfl | rfl | rfl | rfl | rfl | rfl | rfl | rfl | rfl := hp
    all_goals rfl
  obtain ⟨r, hanswer, hr⟩ := Option.map_eq_some_iff.mp hword
  rw [← hr]
  exact lookupOp_completes hanswer s

end Sys2Proof.Machine

namespace Sys2Proof.Machine

/-! ### The address validator (spec/42_address_validator.md R140, R141, R142) -/

/-- VALIDATE has no output group of its own, so a state with no other group's values has no output. -/
theorem State.OnlyGroupOf.noOutput_of_validate {t : State} (h : t.OnlyGroupOf 0x2#4) : t.NoOutput := by
  obtain ⟨henc, hcrc, hdesc, hmsg, hack, hsens⟩ := h
  exact ⟨henc (by decide), hcrc (by decide), hdesc (by decide), hmsg (by decide), hack (by decide), hsens (by decide)⟩

/-- The bytes E0 to E3 of a failure that reports the byte `a` alone are `a` as a number. -/
theorem wordOfBytes_zeros (a : Byte) : wordOfBytes a 0#8 0#8 0#8 = a.setWidth 32 := by
  have hzeros : 0#8 ++ 0#8 ++ 0#8 = 0#24 := by decide
  rw [wordOfBytes, hzeros]
  exact (BitVec.setWidth_eq_append (by decide)).symm

/-- A valid address is done with nothing to write. -/
theorem validateResult_of_valid {a : Byte} (h : addrValid a = true) : validateResult a = .done false .nothing := if_pos h

/-- Any other address fails, and is itself E0. -/
theorem validateResult_of_not_valid {a : Byte} (h : ¬addrValid a = true) :
    validateResult a = .failed ⟨.invalidAddress, a, 0#8, 0#8, 0#8⟩ := if_neg h

/-- Settles O16: VALIDATE responds with its result in every state, and that result is decided by AddrValid, which is R140's condition on A. -/
theorem validateResult_spec : Obligations.ValidateResult := by
  intro f a len s
  refine ⟨s.respond 0x2#4 (validateResult a), rfl, (respond_onlyGroupOf s (validateResult_fits a)).noOutput_of_validate, respond_sameRequest _ _ s, ?_⟩
  split
  next hcond =>
    rw [validateResult_of_valid ((addrValid_iff a).mpr hcond)]
    exact respond_responds 0x2#4 (.done false .nothing) s
  next hcond =>
    have hhdr : rspHdrWord 0x2#4 Status.invalidAddress.retry .invalidAddress = 0x00000201#32 := by decide
    rw [validateResult_of_not_valid (mt (addrValid_iff a).mp hcond), ← wordOfBytes_zeros, ← hhdr]
    exact respond_responds 0x2#4 (.failed ⟨.invalidAddress, a, 0#8, 0#8, 0#8⟩) s

/-- Settles O17: the 256 bytes are a small finite set, checked one by one; the count is that of the list. -/
theorem validAddressesAre115 : Obligations.ValidAddressesAre115 := by
  have hvalid : ((List.range 256).filter fun n => addrValid (BitVec.ofNat 8 n)) = 0x00 :: (List.range 114).map (fun k => 0x15 + 2 * k) := by
    decide
  exact ⟨hvalid, by rw [hvalid, List.length_cons, List.length_map, List.length_range]⟩

end Sys2Proof.Machine

namespace Sys2Proof.Machine

/-! ### The frame of a successful ENCODE (spec/43_encoder.md R150, R155, R156) -/

/-- The length checks pass when the bound of 11 data bytes and the fixed command length, if there is one, are met: the converse of
`encodeLengthCheck_none`. -/
theorem encodeLengthCheck_eq_none {d : Descriptor} {len : Nat} (hbound : len ≤ 11) (hfixed : ∀ n, d.cmd = .fixed n → 5 + len = n.toNat) :
    encodeLengthCheck d len = none := by
  have hle : ¬len > dataMax := Nat.not_lt.mpr hbound
  rw [encodeLengthCheck, if_neg hle]
  cases hcmd : d.cmd with
  | fixed n =>
    have hlen : hdrLen + len + crcLen = n.toNat := by
      rw [← hfixed n hcmd, hdrLen, crcLen]
      omega
    exact if_pos hlen
  | varying => rfl
  | absent => rfl

/-- The checks of ENCODE pass when each of them does: the converse of `encodeCheck_none`. -/
theorem encodeCheck_eq_none {f a : Byte} {len : Nat} {r : LookupAnswer} (haddr : addrValid a = true) (herr : errBit f = false)
    (hlookup : lookup f = some r) (hlen : encodeLengthCheck r.desc len = none) : encodeCheck f a len = none := by
  simp [encodeCheck, haddr, herr, hlookup, hlen]

/-- A function code and a data length its command admits, read off the ROM: no error bit, a seeded row, and the row's command length met. -/
theorem lookup_of_admitted {f : Byte} {len : Nat}
    (h : f ∈ ([0x41#8, 0x42#8, 0x43#8, 0x65#8] : List Byte) ∧ len = 0 ∨ f = 0x44#8 ∧ len = 3 ∨ f = 0x45#8 ∧ len = 2 ∨
      f ∈ ([0x46#8, 0x64#8] : List Byte) ∧ len ≤ 11) :
    errBit f = false ∧ ∃ r, lookup f = some r ∧ len ≤ 11 ∧ ∀ n, r.desc.cmd = .fixed n → 5 + len = n.toNat := by
  obtain ⟨hf, rfl⟩ | ⟨rfl, rfl⟩ | ⟨rfl, rfl⟩ | ⟨hf, hlen⟩ := h
  · simp only [List.mem_cons, List.not_mem_nil, or_false] at hf
    obtain rfl | rfl | rfl | rfl := hf
    all_goals exact ⟨rfl, _, rfl, by decide, fun n hn => by cases hn; rfl⟩
  · exact ⟨rfl, _, rfl, by decide, fun n hn => by cases hn; rfl⟩
  · exact ⟨rfl, _, rfl, by decide, fun n hn => by cases hn; rfl⟩
  · simp only [List.mem_cons, List.not_mem_nil, or_false] at hf
    obtain rfl | rfl := hf
    all_goals exact ⟨rfl, _, rfl, hlen, nofun⟩

/-- A result of group ENC leaves exactly its frame in OBUF. -/
theorem respond_done_enc_obuf (op : BitVec 4) (retry : Bool) (frame : List Byte) (s : State) (i : Nat) :
    Memory.read (s.respond op (.done retry (.enc frame))).obuf i = frame[i]? := Memory.read_writeBytes_nil frame i

/-- A result of group ENC leaves the length of its frame in OLEN. -/
@[simp] theorem respond_done_enc_olen (op : BitVec 4) (retry : Bool) (frame : List Byte) (s : State) :
    (s.respond op (.done retry (.enc frame))).olen = some (BitVec.ofNat 32 frame.length) := rfl

/-- ENCODE whose checks pass, on data bytes that hold a value, responds with the command frame of those bytes. -/
theorem encodeOp_of_check_none {f a : Byte} {len : BitVec 5} {s : State} {d : List Byte} (hcheck : encodeCheck f a len.toNat = none)
    (hl : d.length = len.toNat) (hbuf : s.BufHolds d) :
    encodeOp f a len s = .next (s.respond 0x4#4 (.done false (.enc (commandFrame a f d)))) := by
  rw [encodeOp, hcheck]
  exact withMemRead_of_bufHolds hl hbuf _

/-- Settles O22: an admitted address, function code and length pass the checks of ENCODE, which then responds with the command frame. -/
theorem encodeFrame : Obligations.EncodeFrame := by
  intro f a len s d haddr hadmitted hl hbuf
  obtain ⟨herr, r, hlookup, hbound, hfixed⟩ := lookup_of_admitted hadmitted
  have hcheck : encodeCheck f a len.toNat = none :=
    encodeCheck_eq_none ((addrValid_iff a).mpr haddr) herr hlookup (encodeLengthCheck_eq_none hbound hfixed)
  have hlength : (commandFrame a f d).length = 5 + len.toNat := by rw [commandFrame_length, hl, Nat.add_comm]
  refine ⟨_, encodeOp_of_check_none hcheck hl hbuf, ?_, respond_done_enc_obuf _ _ _ s, respond_responds _ _ s, respond_onlyGroupOf s ?_,
    respond_sameRequest _ _ s⟩
  · rw [respond_done_enc_olen, hlength]
  · exact ⟨rfl, by omega, by omega⟩

/-- Only OK has the status code 0 (spec/30_encoding.md R72). -/
theorem Status.code_eq_zero_iff {st : Status} : st.code = 0#4 ↔ st = .ok := by
  cases st <;> decide

/-- Inversion: an ENCODE that went on with STATUS OK passed its checks and responded with the command frame. -/
theorem encodeOp_ok {f a : Byte} {len : BitVec 5} {s t : State} {d : List Byte} (hl : d.length = len.toNat) (hbuf : s.BufHolds d)
    (hrun : encodeOp f a len s = .next t) (hok : t.rspHdr = some 0x00000400#32) :
    encodeCheck f a len.toNat = none ∧ t = s.respond 0x4#4 (.done false (.enc (commandFrame a f d))) := by
  cases hcheck : encodeCheck f a len.toNat with
  | none =>
    rw [encodeOp_of_check_none hcheck hl hbuf] at hrun
    exact ⟨rfl, (Host.Outcome.next.inj hrun).symm⟩
  | some x =>
    rw [encodeOp, hcheck] at hrun
    obtain rfl := Host.Outcome.next.inj hrun
    have hhdr : rspHdrWord 0x4#4 x.kind.retry x.kind = 0x00000400#32 := by simpa [Result.hdrWord] using hok
    have hcode : x.kind.code = 0#4 := by rw [← statusField_rspHdrWord 0x4#4 x.kind.retry x.kind, hhdr]; decide
    exact absurd (Status.code_eq_zero_iff.mp hcode) (encodeCheck_kind hcheck)

/-! ### DECODE of a frame whose CRC is good (spec/44_decoder.md R172 to R177) -/

/-- A byte is its bit 7 and its base code (spec/00_scope.md R14; spec/30_encoding.md R77). -/
theorem errBit_append_baseCode (c : Byte) : BitVec.ofBool (errBit c) ++ baseCode c = c := by
  have hbit : BitVec.ofBool (errBit c) = c.extractLsb' 7 1 := by
    ext i hi
    simp [errBit, Nat.lt_one_iff.mp hi]
  rw [hbit, baseCode, BitVec.extractLsb'_append_extractLsb'_eq_extractLsb' (by decide)]
  exact extractLsb'_full c

/-- M_ERR and M_FUNC together are a function byte (spec/10_state.md R32). -/
theorem msgHdr_functionByte (m : Message) : m.hdrWord.extractLsb' 8 8 = BitVec.ofBool m.err ++ m.func := by
  rw [← msgHdr_err, ← msgHdr_func, BitVec.extractLsb'_append_extractLsb'_eq_extractLsb' (by decide)]

/-- A frame on the wire: address, function and ack byte, data, and the CRC bytes (R170). -/
def wireFrame (a f k : Byte) (d : List Byte) (clo chi : Byte) : List Byte := [a, f, k] ++ d ++ [clo, chi]

/-- The frame ENCODE writes is a wire frame with ack byte 0x20 and the CRC of what stands before it (R155, R156). -/
theorem commandFrame_eq_wireFrame (a f : Byte) (d : List Byte) :
    commandFrame a f d = wireFrame a f 0x20#8 d (lo (crc16 ([a, f, 0x20#8] ++ d))) (hi (crc16 ([a, f, 0x20#8] ++ d))) := rfl

section WireFrame

variable (a f k : Byte) (d : List Byte) (clo chi : Byte)

@[simp] theorem wireFrame_length : (wireFrame a f k d clo chi).length = d.length + 5 := by simp [wireFrame]
@[simp] theorem elemAt_wireFrame_address : elemAt (wireFrame a f k d clo chi) 0 = a := rfl
@[simp] theorem elemAt_wireFrame_function : elemAt (wireFrame a f k d clo chi) 1 = f := rfl
@[simp] theorem elemAt_wireFrame_ack : elemAt (wireFrame a f k d clo chi) 2 = k := rfl
@[simp] theorem elemAt_wireFrame_crcLo : elemAt (wireFrame a f k d clo chi) (d.length + 3) = clo := by simp [elemAt, wireFrame]
@[simp] theorem elemAt_wireFrame_crcHi : elemAt (wireFrame a f k d clo chi) (d.length + 4) = chi := by simp [elemAt, wireFrame]
@[simp] theorem slice_wireFrame_body : slice (wireFrame a f k d clo chi) 0 (d.length + 5 - crcLen) = [a, f, k] ++ d := by
  simp [slice, wireFrame, crcLen]
@[simp] theorem slice_wireFrame_data : slice (wireFrame a f k d clo chi) hdrLen (d.length + 5 - crcLen) = d := by
  simp [slice, wireFrame, crcLen, hdrLen]

/-- The message of a wire frame is its fields (R172, R177). -/
theorem messageOf_wireFrame :
    messageOf (wireFrame a f k d clo chi) (d.length + 5) = ⟨a, baseCode f, errBit f, k, d, clo, chi⟩ := by
  simp [messageOf]

variable {a f k d clo chi} (hlo : lo (crc16 ([a, f, k] ++ d)) = clo) (hhi : hi (crc16 ([a, f, k] ++ d)) = chi)
include hlo hhi

/-- Step 4: an address that is not acceptable (R174). -/
theorem decodeResult_addressMismatch {e : Byte} (haddr : replyAddrOk a e = false) :
    decodeResult (wireFrame a f k d clo chi) (d.length + 5) e = .failed ⟨.addressMismatch, a, e, 0#8, 0#8⟩ := by
  simp [decodeResult, haddr, ← hlo, ← hhi]

/-- Step 6: a reply length the descriptor does not admit (R176). -/
theorem decodeResult_replyLength {e : Byte} {r : LookupAnswer} {x : Failure} (haddr : replyAddrOk a e = true)
    (hlookup : lookup f = some r) (hlength : replyLengthCheck r.desc (d.length + 5) = some x) :
    decodeResult (wireFrame a f k d clo chi) (d.length + 5) e = .failed x := by
  simp [decodeResult, haddr, hlookup, hlength, ← hlo, ← hhi]

/-- Step 7: every check has passed (R177). -/
theorem decodeResult_message {e : Byte} {r : LookupAnswer} (haddr : replyAddrOk a e = true)
    (hlookup : lookup f = some r) (hlength : replyLengthCheck r.desc (d.length + 5) = none) :
    decodeResult (wireFrame a f k d clo chi) (d.length + 5) e = .done false (.msg ⟨a, baseCode f, errBit f, k, d, clo, chi⟩) := by
  rw [← messageOf_wireFrame]
  simp [decodeResult, haddr, hlookup, hlength, ← hlo, ← hhi]

end WireFrame

/-- DECODE of a buffer that holds a frame of 5 to 16 bytes responds with the result of its checks on that frame (R170, R171). -/
theorem execDecode_of_bufHolds (g e : Byte) {n : BitVec 5} {s : State} {raw : List Byte} (hl : raw.length = n.toNat)
    (hmin : 5 ≤ raw.length) (hmax : raw.length ≤ 16) (hbuf : s.BufHolds raw) :
    execDecode g e n s = .next (s.respond 0x5#4 (decodeResult raw n.toNat e)) := by
  have hcheck : decodeLengthCheck n.toNat = none := decodeLengthCheck_none.mpr ⟨hl ▸ hmin, hl ▸ hmax⟩
  rw [execDecode, hcheck]
  exact withMemRead_of_bufHolds hl hbuf _

/-- A result of group MSG leaves the header word of its message in MSG_HDR. -/
@[simp] theorem respond_done_msg_msgHdr (op : BitVec 4) (retry : Bool) (m : Message) (s : State) :
    (s.respond op (.done retry (.msg m))).msgHdr = some m.hdrWord := rfl

/-- A result of group MSG leaves exactly the data bytes of its message in M_DATA. -/
theorem respond_done_msg_mData (op : BitVec 4) (retry : Bool) (m : Message) (s : State) (i : Nat) :
    Memory.read (s.respond op (.done retry (.msg m))).mData i = m.data[i]? := Memory.read_writeBytes_nil m.data i

/-! ### The round trip (spec/43_encoder.md R158) -/

/-- A reply is never taken from the broadcast address (spec/44_decoder.md R174). -/
theorem replyAddrOk_broadcast (e : Byte) : replyAddrOk 0x00#8 e = false := rfl

/-- A valid address other than the broadcast one answers for itself. -/
theorem replyAddrOk_self {a : Byte} (hvalid : addrValid a = true) (hne : a ≠ 0x00#8) : replyAddrOk a a = true := by
  simp [replyAddrOk, hvalid, addrBcast, hne]

/-- A frame that met the command length meets the reply length when the two lengths of its descriptor agree. -/
theorem replyLengthCheck_of_lengths_eq {d : Descriptor} {len : Nat} (hencode : encodeLengthCheck d len = none) (heq : d.rpl = d.cmd) :
    replyLengthCheck d (len + 5) = none := by
  obtain ⟨-, hfixed⟩ := encodeLengthCheck_none hencode
  rw [replyLengthCheck, heq]
  cases hcmd : d.cmd with
  | fixed n => exact if_pos ((Nat.add_comm len 5).trans (hfixed n hcmd))
  | varying => rfl
  | absent => rfl

/-- A frame that met a fixed command length fails a fixed reply length that differs from it. -/
theorem replyLengthCheck_of_lengths_ne {d : Descriptor} {len : Nat} {c p : BitVec 5} (hencode : encodeLengthCheck d len = none)
    (hcmd : d.cmd = .fixed c) (hrpl : d.rpl = .fixed p) (hne : c ≠ p) : ∃ x, replyLengthCheck d (len + 5) = some x := by
  obtain ⟨-, hfixed⟩ := encodeLengthCheck_none hencode
  have hlen : ¬len + 5 = p.toNat := fun h => hne (BitVec.eq_of_toNat_eq ((hfixed c hcmd).symm.trans ((Nat.add_comm 5 len).trans h)))
  rw [replyLengthCheck, hrpl]
  exact ⟨_, if_neg hlen⟩

/-- The rows of the ROM whose command and reply lengths agree. -/
theorem lookup_lengths_eq {f : Byte} {r : LookupAnswer} (hf : f ∈ ([0x41#8, 0x42#8, 0x44#8, 0x46#8, 0x64#8, 0x65#8] : List Byte))
    (hlookup : lookup f = some r) : r.desc.rpl = r.desc.cmd := by
  simp only [List.mem_cons, List.not_mem_nil, or_false] at hf
  obtain rfl | rfl | rfl | rfl | rfl | rfl := hf
  all_goals
    cases hlookup
    rfl

/-- Status and Read Sensor: the rows whose fixed lengths differ. -/
theorem lookup_lengths_ne {f : Byte} {r : LookupAnswer} (hf : f = 0x43#8 ∨ f = 0x45#8) (hlookup : lookup f = some r) :
    ∃ c p, r.desc.cmd = .fixed c ∧ r.desc.rpl = .fixed p ∧ c ≠ p := by
  obtain rfl | rfl := hf
  all_goals
    cases hlookup
    exact ⟨_, _, rfl, rfl, by decide⟩

/-- The message of an encoded frame gives back its address, function byte, ack byte and data length. -/
theorem msgHdr_of_frame (a f k : Byte) {d : List Byte} (clo chi : Byte) (hd : d.length ≤ 11) :
    let h := Message.hdrWord ⟨a, baseCode f, errBit f, k, d, clo, chi⟩
    h.extractLsb' 0 8 = a ∧ h.extractLsb' 8 8 = f ∧ h.extractLsb' 16 8 = k ∧ (h.extractLsb' 24 4).toNat = d.length := by
  refine ⟨msgHdr_addr _, (msgHdr_functionByte _).trans (errBit_append_baseCode f), msgHdr_ack _, ?_⟩
  rw [msgHdr_dlen, BitVec.toNat_ofNat]
  exact Nat.mod_eq_of_lt (by dsimp only; omega)

/-- Settles O28: a successful ENCODE wrote the command frame, whose CRC is good, so DECODE comes to the address, where 0x00 fails and any other
valid address is its own, and then to the reply length, where the frame has the command length of the same descriptor. -/
theorem encodeDecodeRoundTrip : Obligations.EncodeDecodeRoundTrip := by
  intro f a g len n s t s' d hl hbuf hrun hok holen hread
  obtain ⟨hcheck, rfl⟩ := encodeOp_ok hl hbuf hrun hok
  obtain ⟨hvalid, -, r, hlookup, hencode⟩ := encodeCheck_none hcheck
  obtain ⟨hbound, -⟩ := encodeLengthCheck_none hencode
  rw [← hl] at hencode hbound
  have hn : n.toNat = d.length + 5 := by
    have hwords : BitVec.ofNat 32 (d.length + 5) = n.setWidth 32 := by
      rw [← commandFrame_length a f d]
      exact Option.some.inj holen
    have hnats := congrArg BitVec.toNat hwords
    rw [BitVec.toNat_ofNat, BitVec.toNat_setWidth] at hnats
    omega
  have hframe : s'.BufHolds (commandFrame a f d) := fun i hi => by
    rw [commandFrame_length, ← hn] at hi
    rw [hread i hi, respond_done_enc_obuf]
  have hlength := commandFrame_length a f d
  have hdecode : exec (.decode g a n) s' = .next (s'.respond 0x5#4 (decodeResult (commandFrame a f d) (d.length + 5) a)) := by
    rw [← hn]
    exact execDecode_of_bufHolds g a (hlength.trans hn.symm) (by omega) (by omega) hframe
  refine ⟨_, hdecode, ?_, ?_, ?_⟩
  · intro hne hf
    have hdone := decodeResult_message (k := 0x20#8) rfl rfl (replyAddrOk_self hvalid hne) hlookup
      (replyLengthCheck_of_lengths_eq hencode (lookup_lengths_eq hf hlookup))
    rw [commandFrame_eq_wireFrame, hdone]
    exact ⟨respond_rspHdr _ _ s', ⟨_, respond_done_msg_msgHdr _ _ _ s', msgHdr_of_frame a f _ _ _ hbound⟩, respond_done_msg_mData _ _ _ s'⟩
  · intro hne hf
    obtain ⟨c, p, hcmd, hrpl, hcp⟩ := lookup_lengths_ne hf hlookup
    obtain ⟨x, hx⟩ := replyLengthCheck_of_lengths_ne hencode hcmd hrpl hcp
    have hfailed := decodeResult_replyLength (k := 0x20#8) rfl rfl (replyAddrOk_self hvalid hne) hlookup hx
    rw [commandFrame_eq_wireFrame, hfailed, respond_rspHdr, Result.hdrWord, replyLengthCheck_kind hx]
    rfl
  · rintro rfl
    rw [commandFrame_eq_wireFrame, decodeResult_addressMismatch rfl rfl (replyAddrOk_broadcast _), respond_rspHdr]
    rfl

end Sys2Proof.Machine

namespace Sys2Proof.Machine

/-! ### The catalog as a table (spec/41_function_catalog.md R120, R121, R124) -/

/-- A table has no row for a code exactly when the code is not among its keys. -/
theorem romRow_eq_none_iff {rows : List (BitVec 7 × Descriptor)} {b : BitVec 7} : romRow rows b = none ↔ b ∉ rows.map Prod.fst := by
  induction rows with
  | nil => simp [romRow]
  | cons row rows ih =>
    by_cases hb : b = row.1
    · simp [romRow, hb]
    · simp [romRow, hb, ih]

/-- The descriptor of a code is a row of the table. -/
theorem romRow_mem {rows : List (BitVec 7 × Descriptor)} {b : BitVec 7} {d : Descriptor} (h : romRow rows b = some d) : (b, d) ∈ rows := by
  induction rows with
  | nil => cases h
  | cons row rows ih =>
    rw [romRow] at h
    split at h
    next hb =>
      cases h
      exact hb ▸ List.mem_cons_self
    next => exact List.mem_cons_of_mem _ (ih h)

/-- Lookup fails exactly where the ROM has no row for the base code, whatever bit 7 is. -/
theorem lookup_eq_none_iff_descriptorOf {c : Byte} : lookup c = none ↔ descriptorOf (baseCode c) = none := by
  unfold lookup
  cases descriptorOf (baseCode c) with
  | none => simp
  | some d => cases errBit c <;> simp

/-- The base code of a byte is its low seven bits (spec/00_scope.md R14). -/
theorem setWidth_baseCode (c : Byte) : (baseCode c).setWidth 8 = c &&& 0x7F#8 := by
  revert c; decide

/-- Lookup fails exactly on the bytes whose low seven bits are not a seeded code. -/
theorem lookup_eq_none_iff {c : Byte} :
    lookup c = none ↔ c &&& 0x7F#8 ∉ ([0x41#8, 0x42#8, 0x43#8, 0x44#8, 0x45#8, 0x46#8, 0x64#8, 0x65#8] : List Byte) := by
  have hinjective : Function.Injective (BitVec.setWidth 8 : BitVec 7 → Byte) :=
    Function.LeftInverse.injective (g := BitVec.setWidth 7) fun x => by
      rw [BitVec.setWidth_setWidth_of_le x (by decide), BitVec.setWidth_eq]
  calc lookup c = none
    _ ↔ baseCode c ∉ descriptorRom.map Prod.fst := lookup_eq_none_iff_descriptorOf.trans romRow_eq_none_iff
    _ ↔ (baseCode c).setWidth 8 ∉ (descriptorRom.map Prod.fst).map (BitVec.setWidth 8) := not_congr (List.mem_map_of_injective hinjective).symm
    _ ↔ _ := by rw [setWidth_baseCode]; rfl

/-- The function bytes with a fixed reply length, each with that length; no error code is among them (R120, R122). -/
def fixedReplies : List (Byte × BitVec 5) := [(0x41#8, 5#5), (0x42#8, 5#5), (0x43#8, 6#5), (0x44#8, 8#5), (0x45#8, 9#5), (0x65#8, 5#5)]

/-- Each of them is in the catalog, with that reply length. -/
theorem lookup_of_mem_fixedReplies {p : Byte × BitVec 5} (hp : p ∈ fixedReplies) : ∃ r, lookup p.1 = some r ∧ r.desc.rpl = .fixed p.2 := by
  simp only [fixedReplies, List.mem_cons, List.not_mem_nil, or_false] at hp
  obtain rfl | rfl | rfl | rfl | rfl | rfl := hp
  all_goals exact ⟨_, rfl, rfl⟩

/-- No other byte has a fixed reply length: an error code has the shared descriptor, and any other code is one of the eight rows. -/
theorem mem_fixedReplies_of_lookup {f : Byte} {r : LookupAnswer} {k : BitVec 5} (hlookup : lookup f = some r) (hrpl : r.desc.rpl = .fixed k) :
    (f, k) ∈ fixedReplies := by
  unfold lookup at hlookup
  split at hlookup
  next => cases hlookup
  next d hd =>
    split at hlookup
    next =>
      cases hlookup
      cases hrpl
    next herr =>
      cases hlookup
      have hf : f = BitVec.ofBool false ++ baseCode f := by
        rw [← Bool.eq_false_iff.mpr herr, errBit_append_baseCode]
      have hrow := romRow_mem hd
      rw [hf]
      generalize baseCode f = b at hrow
      simp only [descriptorRom, List.mem_cons, List.not_mem_nil, or_false, Prod.mk.injEq] at hrow
      obtain ⟨rfl, rfl⟩ | ⟨rfl, rfl⟩ | ⟨rfl, rfl⟩ | ⟨rfl, rfl⟩ | ⟨rfl, rfl⟩ | ⟨rfl, rfl⟩ | ⟨rfl, rfl⟩ | ⟨rfl, rfl⟩ := hrow
      all_goals cases hrpl
      all_goals decide

/-! ### The checks of DECODE, each in the words of its rule (spec/44_decoder.md R171 to R176) -/

/-- ReplyAddrOk in numbers (R174). -/
theorem replyAddrOk_iff {a e : Byte} :
    replyAddrOk a e = true ↔ a ≠ 0x00#8 ∧ (a.getLsbD 0 = true ∧ 0x15#8 ≤ a ∧ a ≤ 0xF7#8) ∧ (e = 0x00#8 ∨ a = e) := by
  simp only [replyAddrOk, Bool.and_eq_true, bne_iff_ne, Bool.or_eq_true, beq_iff_eq, addrValid_iff, and_assoc]
  refine and_congr_right fun hne => ?_
  rw [or_iff_right (show ¬a = 0x00#8 from hne), and_assoc, and_assoc]
  rfl

/-- A CRC value is its two bytes, high before low (spec/00_scope.md R10). -/
theorem eq_append_iff_lo_hi {c : Half} {clo chi : Byte} : c = chi ++ clo ↔ lo c = clo ∧ hi c = chi := by
  constructor
  · rintro rfl
    exact ⟨(extractLsb'_append_lo 0 chi clo (by decide)).trans (extractLsb'_full clo),
      (extractLsb'_append_hi 8 chi clo (by decide)).trans (extractLsb'_full chi)⟩
  · rintro ⟨rfl, rfl⟩
    rw [hi, lo, BitVec.extractLsb'_append_extractLsb'_eq_extractLsb' (by decide)]
    exact (extractLsb'_full c).symm

/-- Step 1 for a frame that is too short (R171). -/
theorem decodeLengthCheck_short {n : Nat} (h : n < 5) :
    decodeLengthCheck n = some ⟨.malformedFrame, lenByte n, 5#8, 0#8, 0#8⟩ := if_pos h

/-- Step 1 for a frame that is too long (R171). -/
theorem decodeLengthCheck_long {n : Nat} (h : 16 < n) :
    decodeLengthCheck n = some ⟨.malformedFrame, lenByte n, 16#8, 0#8, 0#8⟩ :=
  (if_neg (show ¬n < 5 by omega)).trans (if_pos h)

/-- Step 6 passes when the fixed reply length, if there is one, is met (R176). -/
theorem replyLengthCheck_eq_none {d : Descriptor} {n : Nat} (hfixed : ∀ k, d.rpl = .fixed k → n = k.toNat) : replyLengthCheck d n = none := by
  unfold replyLengthCheck
  split
  next k hrpl => exact if_pos (hfixed k hrpl)
  next => rfl
  next => rfl

/-- Step 6 fails on a fixed reply length that is not met, and reports both lengths (R176). -/
theorem replyLengthCheck_eq_some {d : Descriptor} {n : Nat} {k : BitVec 5} (hrpl : d.rpl = .fixed k) (hne : n ≠ k.toNat) :
    replyLengthCheck d n = some ⟨.malformedFrame, lenByte n, k.setWidth 8, 0#8, 0#8⟩ := by
  rw [replyLengthCheck, hrpl]
  exact if_neg hne

/-- Steps 2 and 3: a CRC that disagrees in either byte is reported with the received and the computed bytes (R173). -/
theorem decodeResult_of_crc_ne {raw : List Byte} {n : Nat} (e : Byte)
    (h : lo (crc16 (slice raw 0 (n - crcLen))) ≠ elemAt raw (n - 2) ∨ hi (crc16 (slice raw 0 (n - crcLen))) ≠ elemAt raw (n - 1)) :
    decodeResult raw n e = .failed ⟨.crcMismatch, elemAt raw (n - 2), elemAt raw (n - 1), lo (crc16 (slice raw 0 (n - crcLen))),
      hi (crc16 (slice raw 0 (n - crcLen)))⟩ := if_pos h

/-- The same of a wire frame: the CRC is taken over all bytes but the last two (R172, R173). -/
theorem decodeResult_crcMismatch {a f k clo chi : Byte} {d : List Byte} (e : Byte) (hcrc : crc16 ([a, f, k] ++ d) ≠ chi ++ clo) :
    decodeResult (wireFrame a f k d clo chi) (d.length + 5) e =
      .failed ⟨.crcMismatch, clo, chi, lo (crc16 ([a, f, k] ++ d)), hi (crc16 ([a, f, k] ++ d))⟩ := by
  have hdiffers := not_and_or.mp (mt eq_append_iff_lo_hi.mpr hcrc)
  simpa using decodeResult_of_crc_ne (raw := wireFrame a f k d clo chi) (n := d.length + 5) e (by simpa using hdiffers)

/-- Step 5: a function byte the catalog does not know (R175). -/
theorem decodeResult_unknownFunctionCode {a f k clo chi e : Byte} {d : List Byte} (hlo : lo (crc16 ([a, f, k] ++ d)) = clo)
    (hhi : hi (crc16 ([a, f, k] ++ d)) = chi) (haddr : replyAddrOk a e = true) (hlookup : lookup f = none) :
    decodeResult (wireFrame a f k d clo chi) (d.length + 5) e = .failed ⟨.unknownFunctionCode, f, 0#8, 0#8, 0#8⟩ := by
  simp [decodeResult, haddr, hlookup, ← hlo, ← hhi]

/-! ### How DECODE responds (spec/44_decoder.md R177 to R180) -/

/-- Settles O27: no check of DECODE reads the expected function, so the operand drops out when the arm is unfolded. -/
theorem decodeIgnoresExpectedFunction : Obligations.DecodeIgnoresExpectedFunction := fun _ _ _ _ _ => rfl

/-- DECODE of a length that step 1 rejects fails without reading a buffer byte (R171). -/
theorem execDecode_of_lengthCheck {f e : Byte} {len : BitVec 5} {x : Failure} (s : State) (h : decodeLengthCheck len.toNat = some x) :
    execDecode f e len s = .next (s.respond 0x5#4 (.failed x)) := by
  rw [execDecode, h]

/-- DECODE of a buffer that holds a wire frame of at most 16 bytes responds with the result of its checks on that frame (R170). -/
theorem execDecode_wireFrame (g e : Byte) {a f k clo chi : Byte} {d : List Byte} {len : BitVec 5} {s : State} (hd : d.length ≤ 11)
    (hlen : len.toNat = 5 + d.length) (hbuf : s.BufHolds (wireFrame a f k d clo chi)) :
    execDecode g e len s = .next (s.respond 0x5#4 (decodeResult (wireFrame a f k d clo chi) (d.length + 5) e)) := by
  have hl := wireFrame_length a f k d clo chi
  rw [Nat.add_comm] at hlen
  rw [← hlen]
  exact execDecode_of_bufHolds g e (hl.trans hlen.symm) (by omega) (by omega) hbuf

/-- A DECODE that responds with a failure completes with its words, and no output group holds a value (R180). -/
theorem decode_fails {f e : Byte} {len : BitVec 5} {s : State} {x : Failure} (h : execDecode f e len s = .next (s.respond 0x5#4 (.failed x)))
    {hdr err : Word} (hhdr : rspHdrWord 0x5#4 x.kind.retry x.kind = hdr) (herr : x.errWord = err) :
    ∃ t, exec (.decode f e len) s = .next t ∧ t.Responds hdr err ∧ t.NoOutput ∧ s.SameRequest t := by
  subst hhdr herr
  exact ⟨_, h, respond_responds 0x5#4 (.failed x) s, respond_failed_noOutput _ _ _, respond_sameRequest _ _ _⟩

/-- RSP_HDR of the four failures of DECODE: RES_OP 5, RETRY 1 for MalformedFrame and CrcMismatch and 0 otherwise (R180, R231). -/
theorem rspHdrWord_decode :
    rspHdrWord 0x5#4 Status.malformedFrame.retry .malformedFrame = 0x00000515#32 ∧
    rspHdrWord 0x5#4 Status.crcMismatch.retry .crcMismatch = 0x00000516#32 ∧
    rspHdrWord 0x5#4 Status.addressMismatch.retry .addressMismatch = 0x00000507#32 ∧
    rspHdrWord 0x5#4 Status.unknownFunctionCode.retry .unknownFunctionCode = 0x00000503#32 := by
  decide

/-- The bytes E0 to E3 of a failure that reports two bytes. -/
theorem wordOfBytes_two (a b : Byte) : wordOfBytes a b 0#8 0#8 = 0#16 ++ b ++ a := rfl

/-- The bytes E0 to E3 of a failure that reports a length and its bound. -/
theorem wordOfBytes_length (len : BitVec 5) (bound : Byte) :
    wordOfBytes (lenByte len.toNat) bound 0#8 0#8 = 0#16 ++ bound ++ len.setWidth 8 := by
  rw [wordOfBytes_two, lenByte, BitVec.ofNat_toNat]

/-- Settles O26: step 1 decides on the length alone; a frame of admitted length comes to the first of the later checks that it fails. -/
theorem decodeFailures : Obligations.DecodeFailures := by
  intro f e len s
  obtain ⟨hmalformed, hcrcMismatch, haddressMismatch, hunknown⟩ := rspHdrWord_decode
  refine ⟨fun h => decode_fails (execDecode_of_lengthCheck s (decodeLengthCheck_short h)) hmalformed (wordOfBytes_length len 5#8),
    fun h => decode_fails (execDecode_of_lengthCheck s (decodeLengthCheck_long h)) hmalformed (wordOfBytes_length len 16#8), ?_⟩
  intro ra rf k clo chi data hd hlen hbuf
  have hdecode := execDecode_wireFrame f e hd hlen hbuf
  refine ⟨fun hbad => ?_, fun hgood haddr => ?_, fun hgood haddr hcode => ?_, fun hgood haddr p hp hfunction hne => ?_⟩
  · rw [decodeResult_crcMismatch e hbad] at hdecode
    exact decode_fails hdecode hcrcMismatch rfl
  all_goals obtain ⟨hlo, hhi⟩ := eq_append_iff_lo_hi.mp hgood
  · rw [decodeResult_addressMismatch hlo hhi (Bool.eq_false_iff.mpr (mt replyAddrOk_iff.mp haddr))] at hdecode
    exact decode_fails hdecode haddressMismatch (wordOfBytes_two ra e)
  · rw [decodeResult_unknownFunctionCode hlo hhi (replyAddrOk_iff.mpr haddr) (lookup_eq_none_iff.mpr hcode)] at hdecode
    exact decode_fails hdecode hunknown (wordOfBytes_zeros rf)
  · obtain ⟨⟨g, n⟩, hmem, rfl⟩ := List.mem_map.mp (show p ∈ fixedReplies.map (Prod.map id (BitVec.setWidth 8)) from hp)
    obtain ⟨r, hlookup, hrpl⟩ := lookup_of_mem_fixedReplies hmem
    obtain rfl : rf = g := hfunction
    have hne' : data.length + 5 ≠ n.toNat := by
      rw [Nat.add_comm, ← hlen, ← BitVec.toNat_setWidth_of_le (show 5 ≤ 8 by decide)]
      exact hne
    have hcheck := replyLengthCheck_eq_some hrpl hne'
    rw [decodeResult_replyLength hlo hhi (replyAddrOk_iff.mpr haddr) hlookup hcheck, Nat.add_comm, ← hlen] at hdecode
    exact decode_fails hdecode hmalformed (wordOfBytes_length len _)

/-- M_ERR as a bit of MSG_HDR (spec/10_state.md R32). -/
theorem msgHdr_err_bit (m : Message) : m.hdrWord.getLsbD 15 = m.err := by
  calc m.hdrWord.getLsbD 15
    _ = (m.hdrWord.extractLsb' 15 1).getLsbD 0 := by rw [BitVec.getLsbD_extractLsb']; rfl
    _ = m.err := by rw [msgHdr_err, BitVec.getLsbD_ofBool]; simp

/-- A result of group MSG leaves the two CRC bytes of its message in MSG_CRC. -/
@[simp] theorem respond_done_msg_msgCrc (op : BitVec 4) (retry : Bool) (m : Message) (s : State) :
    (s.respond op (.done retry (.msg m))).msgCrc = some m.crcWord := rfl

/-- Settles O25: such a reply passes every check, so DECODE responds with the message of its fields, and the fields of the response registers
are read back from that message. -/
theorem decodeMessage : Obligations.DecodeMessage := by
  intro f e ra rf k clo chi data len s hd hlen hbuf hcrc hodd hmin hmax hexpected hcode hfixed
  obtain ⟨hlo, hhi⟩ := eq_append_iff_lo_hi.mp hcrc
  have hne : ra ≠ 0x00#8 := by
    rintro rfl
    cases hodd
  have haddr : replyAddrOk ra e = true := replyAddrOk_iff.mpr ⟨hne, ⟨hodd, hmin, hmax⟩, hexpected⟩
  obtain ⟨r, hlookup⟩ := Option.ne_none_iff_exists'.mp (mt lookup_eq_none_iff.mp (not_not.mpr hcode))
  have hcheck : replyLengthCheck r.desc (data.length + 5) = none := replyLengthCheck_eq_none fun n hrpl => by
    rw [Nat.add_comm, ← hlen]
    exact hfixed (rf, n.toNat) (List.mem_map_of_mem (f := Prod.map id BitVec.toNat) (mem_fixedReplies_of_lookup hlookup hrpl)) rfl
  have hdecode := execDecode_wireFrame f e hd hlen hbuf
  rw [decodeResult_message hlo hhi haddr hlookup hcheck] at hdecode
  obtain ⟨hra, -, hack, hdlen⟩ := msgHdr_of_frame ra rf k clo chi hd
  exact ⟨_, _, hdecode, respond_done_msg_msgHdr _ _ _ s, hra, msgHdr_func _, msgHdr_err_bit _, hack, hdlen, msgHdr_reserved _,
    respond_done_msg_msgCrc _ _ _ s, respond_done_msg_mData _ _ _ s, respond_responds 0x5#4 (.done false (.msg _)) s,
    respond_onlyGroupOf s ⟨rfl, hd⟩, respond_sameRequest _ _ s⟩

end Sys2Proof.Machine

namespace Sys2Proof.Machine

/-! ### The classification of an ack byte (spec/45_classifier.md R200, R201, R202) -/

/-- NackPresent in numbers (R201). -/
theorem nackPresent_iff {k : Byte} : nackPresent k = true ↔ 0x01#8 ≤ k ∧ k ≤ 0x0A#8 := by
  rw [nackPresent, Bool.and_eq_true, decide_eq_true_iff, decide_eq_true_iff, nackLo, nackHi]

/-- The retry hint as it stands in RSP_HDR: fixed for 0x04 and 0x06, and the parameter's for any other code (R201). -/
theorem ite_nackRetry {α : Sort*} (k : Byte) (yes no : α) :
    (if nackRetry k then yes else no) =
      if k = 0x04#8 then no else if k = 0x06#8 then yes else if Config.nackRetryable k then yes else no := by
  unfold nackRetry
  by_cases h4 : k = 0x04#8
  · simp [h4]
  · by_cases h6 : k = 0x06#8
    · simp [h6]
    · simp [h4, h6]

/-- ACK_RES of a NACK is its code above the byte 2 (spec/10_state.md R33). -/
theorem ackResWord_nack (k : Byte) : ackResWord .nack k = 0#16 ++ k ++ 2#8 := by
  have hlow : 0#6 ++ AckClass.nack.code = 2#8 := by decide
  rw [ackResWord, BitVec.append_assoc, hlow]
  rfl

/-- A code of the NACK ROM is classified as a NACK: neither 0x10 nor 0x20 is one. -/
theorem classifyAckResult_of_nack {k : Byte} (h : nackPresent k = true) :
    classifyAckResult k = .done (nackRetry k) (.ack (ackResWord .nack k)) := by
  have hreply : k ≠ replyAck := by
    rintro rfl
    exact absurd h (by decide)
  have hcommand : k ≠ commandAck := by
    rintro rfl
    exact absurd h (by decide)
  rw [classifyAckResult, if_neg hreply, if_neg hcommand, if_pos h]

/-- A byte of none of the three classes fails, and is itself E0. -/
theorem classifyAckResult_of_unknown {k : Byte} (hreply : k ≠ replyAck) (hcommand : k ≠ commandAck) (hnack : ¬nackPresent k = true) :
    classifyAckResult k = .failed ⟨.unknownNackCode, k, 0#8, 0#8, 0#8⟩ := by
  rw [classifyAckResult, if_neg hreply, if_neg hcommand, if_neg hnack]

/-- RSP_HDR of a classified ack byte: RES_OP 6, RETRY as given, STATUS 0. -/
theorem rspHdrWord_classifyAck (retry : Bool) : rspHdrWord 0x6#4 retry .ok = if retry then 0x00000610#32 else 0x00000600#32 := by
  cases retry <;> rfl

/-- A result of group ACK leaves its word there, and the response words of a success with the retry hint. -/
theorem respond_done_ack (retry : Bool) (w : Word) (s : State) :
    (s.respond 0x6#4 (.done retry (.ack w))).Responds (if retry then 0x00000610#32 else 0x00000600#32) 0#32 ∧
      (s.respond 0x6#4 (.done retry (.ack w))).ackRes = some w := by
  rw [← rspHdrWord_classifyAck]
  exact ⟨respond_responds 0x6#4 (.done retry (.ack w)) s, rfl⟩

/-- Settles O29: CLASSIFY_ACK responds with its result in every state, and that result is decided by the ack byte class by class. -/
theorem classifyAckResult_spec : Obligations.ClassifyAckResult := by
  intro f k len s
  refine ⟨s.respond 0x6#4 (classifyAckResult k), rfl, respond_onlyGroupOf s (classifyAckResult_fits k), respond_sameRequest _ _ s, ?_, ?_, ?_, ?_⟩
  · rintro rfl
    exact respond_done_ack false (ackResWord .success 0#8) s
  · rintro rfl
    exact respond_done_ack false (ackResWord .command 0#8) s
  · intro hlo hhi
    rw [classifyAckResult_of_nack (nackPresent_iff.mpr ⟨hlo, hhi⟩), ← ite_nackRetry, ← ackResWord_nack]
    exact respond_done_ack (nackRetry k) (ackResWord .nack k) s
  · intro hreply hcommand hnack
    have hhdr : rspHdrWord 0x6#4 Status.unknownNackCode.retry .unknownNackCode = 0x00000608#32 := by decide
    rw [classifyAckResult_of_unknown hreply hcommand (mt nackPresent_iff.mp hnack), ← wordOfBytes_zeros, ← hhdr]
    exact ⟨respond_responds 0x6#4 (.failed _) s, respond_failed_noOutput _ _ _⟩

end Sys2Proof.Machine

namespace Sys2Proof

/-! ### The decoder and the encoder undo each other (spec/30_encoding.md R70, R71, R74, R78, R79, R84) -/

/-- The decoder sees exactly the six fields a header word was put together from (R70). -/
@[simp] theorem decodeHeader_headerOfFields (f a : Byte) (rsv1 : BitVec 3) (len : BitVec 5) (rsv0 op : BitVec 4) :
    decodeHeader (headerOfFields f a rsv1 len rsv0 op) = decodeFields f a rsv1 len rsv0 op := by
  simp [decodeHeader]

/-- A legal header decodes by the operation map alone (R71). -/
theorem decodeHeader_header {f a : Byte} {len : BitVec 5} {op : BitVec 4} {i : Instr} (h : decodeOp f a len op = some i) :
    decodeHeader (header f a len op) = i := by
  simp [header, decodeFields, h]

/-- A word of ENCODE that R84 does not name is ENCODE's own. -/
theorem decodeEncode_of_not_pseudoWord {f : Byte} (a : Byte) {len : BitVec 5} (h : pseudoWord f len = false) :
    decodeEncode f a len = .encode f a len := by
  simp only [pseudoWord, Bool.or_eq_false_iff, Bool.and_eq_false_imp, beq_iff_eq, beq_eq_false_iff_ne] at h
  obtain ⟨⟨⟨⟨⟨⟨⟨hgo, hstop⟩, hstatus⟩, hsetdemand⟩, hreadsensor⟩, hstorecfg⟩, hreadid⟩, hconfig⟩ := h
  simp [decodeEncode, hreadid, hconfig, not_and.mpr hgo, not_and.mpr hstop, not_and.mpr hstatus, not_and.mpr hsetdemand,
    not_and.mpr hreadsensor, not_and.mpr hstorecfg]

/-- Settles O1: a request's fields are read back from its header, where the operation map finds it; a wire byte is found in its map. -/
theorem decodeInvertsEncode : Obligations.DecodeInvertsEncode := by
  intro i hwf
  cases i with
  | encode f a len =>
    have hencode := decodeEncode_of_not_pseudoWord a (by simpa [Instr.WellFormed] using hwf)
    exact congrArg Except.ok (decodeHeader_header (congrArg some hencode))
  | illegalOp f a rsv1 len rsv0 op =>
    exact congrArg Except.ok ((decodeHeader_headerOfFields ..).trans (Machine.decodeFields_of_reserved f a len hwf))
  | crc | validate | lookup | decode | classifyAck | classifySensor => exact congrArg Except.ok (decodeHeader_header rfl)
  | go | stop | status | setdemand | readsensor | storecfg | readid | config => exact congrArg Except.ok (decodeHeader_header rfl)
  | _ => rfl

/-- A word of ENCODE decodes to a well-formed instruction, whose encoding it is (R84). -/
theorem decodeEncode_wellFormed_encode (f a : Byte) (len : BitVec 5) :
    (decodeEncode f a len).WellFormed = true ∧ encode (decodeEncode f a len) = .header (header f a len 0x4#4) := by
  cases h : pseudoWord f len with
  | false =>
    rw [decodeEncode_of_not_pseudoWord a h]
    exact ⟨by simp [Instr.WellFormed, h], rfl⟩
  | true =>
    simp only [pseudoWord, Bool.or_eq_true, Bool.and_eq_true, beq_iff_eq] at h
    obtain ((((((⟨rfl, rfl⟩ | ⟨rfl, rfl⟩) | ⟨rfl, rfl⟩) | ⟨rfl, rfl⟩) | ⟨rfl, rfl⟩) | ⟨rfl, rfl⟩) | rfl) | rfl := h
    all_goals exact ⟨rfl, rfl⟩

/-- A header that the operation map holds decodes to a well-formed instruction, whose encoding it is (R71). -/
theorem decodeOp_wellFormed_encode {f a : Byte} {len : BitVec 5} {op : BitVec 4} {i : Instr} (h : decodeOp f a len op = some i) :
    i.WellFormed = true ∧ encode i = .header (header f a len op) := by
  by_cases hop : op = 0x4#4
  · subst hop
    cases h
    exact decodeEncode_wellFormed_encode f a len
  · simp only [decodeOp, if_neg hop] at h
    repeat' split at h
    all_goals cases h
    all_goals
      subst op
      exact ⟨rfl, rfl⟩

/-- The six fields of a header decode to a well-formed instruction, whose encoding has those fields. -/
theorem decodeFields_wellFormed_encode (f a : Byte) (rsv1 : BitVec 3) (len : BitVec 5) (rsv0 op : BitVec 4) :
    (decodeFields f a rsv1 len rsv0 op).WellFormed = true ∧
      encode (decodeFields f a rsv1 len rsv0 op) = .header (headerOfFields f a rsv1 len rsv0 op) := by
  by_cases hreserved : reservedHeader rsv1 rsv0 op = true
  · rw [Machine.decodeFields_of_reserved f a len hreserved]
    exact ⟨hreserved, rfl⟩
  · have hdecode := decodeOp_wellFormed_encode (Machine.decodeOp_of_not_reserved f a len hreserved)
    simp only [Machine.reservedHeader_iff, not_or, not_not] at hreserved
    obtain ⟨-, -, rfl, rfl⟩ := hreserved
    exact hdecode

/-- Settles O2: a word is put together again from its six fields. -/
theorem headerDecodingKeepsEveryBit : Obligations.HeaderDecodingKeepsEveryBit := by
  intro w
  have hfields := decodeFields_wellFormed_encode (fField w) (aField w) (rsv1Field w) (lenField w) (rsv0Field w) (opField w)
  rwa [headerOfFields_fields] at hfields

end Sys2Proof

namespace Sys2Proof.Machine

/-! ### Where the value of each output group comes from (spec/10_state.md R39) -/

section GroupValue

variable {op : BitVec 4} {r : Result} {s : State}

/-- OLEN holds a value exactly after a success of group ENC: the length of the frame. -/
theorem respond_olen_eq_some_iff {n : Word} :
    (s.respond op r).olen = some n ↔ ∃ retry frame, r = .done retry (.enc frame) ∧ BitVec.ofNat 32 frame.length = n := by
  cases r with
  | failed x => simp [State.respond, State.raise]
  | done retry o => cases o <;> simp [State.respond, State.done]

/-- CRC_RES holds a value exactly after a success of group CRC. -/
theorem respond_crcRes_eq_some_iff {w : Word} :
    (s.respond op r).crcRes = some w ↔ ∃ retry c, r = .done retry (.crc c) ∧ c.setWidth 32 = w := by
  cases r with
  | failed x => simp [State.respond, State.raise]
  | done retry o => cases o <;> simp [State.respond, State.done]

/-- DESC holds a value exactly after a success of group DESC. -/
theorem respond_desc_eq_some_iff {w : Word} : (s.respond op r).desc = some w ↔ ∃ retry, r = .done retry (.desc w) := by
  cases r with
  | failed x => simp [State.respond, State.raise]
  | done retry o => cases o <;> simp [State.respond, State.done]

/-- MSG_HDR holds a value exactly after a success of group MSG. -/
theorem respond_msgHdr_eq_some_iff {w : Word} :
    (s.respond op r).msgHdr = some w ↔ ∃ retry m, r = .done retry (.msg m) ∧ m.hdrWord = w := by
  cases r with
  | failed x => simp [State.respond, State.raise]
  | done retry o => cases o <;> simp [State.respond, State.done]

/-- ACK_RES holds a value exactly after a success of group ACK. -/
theorem respond_ackRes_eq_some_iff {w : Word} : (s.respond op r).ackRes = some w ↔ ∃ retry, r = .done retry (.ack w) := by
  cases r with
  | failed x => simp [State.respond, State.raise]
  | done retry o => cases o <;> simp [State.respond, State.done]

/-- SENS_RES holds a value exactly after a success of group SENS. -/
theorem respond_sensRes_eq_some_iff {w : Word} : (s.respond op r).sensRes = some w ↔ ∃ retry, r = .done retry (.sens w) := by
  cases r with
  | failed x => simp [State.respond, State.raise]
  | done retry o => cases o <;> simp [State.respond, State.done]

/-- OBUF after a response is in canonical form and has at most 16 bytes (R29). -/
theorem respond_obufForm (h : r.Fits op) : Memory.wf (s.respond op r).obuf ∧ Memory.below 16 (s.respond op r).obuf := by
  cases r with
  | failed x => exact ⟨Memory.wf_nil, nofun⟩
  | done retry o =>
    cases o with
    | enc frame =>
      obtain ⟨-, -, hmax⟩ := h
      exact ⟨Memory.writeBytes_wf Memory.wf_nil _ _, Memory.writeBytes_below frame nofun (by omega)⟩
    | _ => exact ⟨Memory.wf_nil, nofun⟩

/-- M_DATA after a response is in canonical form and has at most 11 bytes (R32). -/
theorem respond_mDataForm (h : r.Fits op) : Memory.wf (s.respond op r).mData ∧ Memory.below 11 (s.respond op r).mData := by
  cases r with
  | failed x => exact ⟨Memory.wf_nil, nofun⟩
  | done retry o =>
    cases o with
    | msg m =>
      obtain ⟨-, hmax⟩ := h
      exact ⟨Memory.writeBytes_wf Memory.wf_nil _ _, Memory.writeBytes_below m.data nofun (by omega)⟩
    | _ => exact ⟨Memory.wf_nil, nofun⟩

/-- STATUS of a response whose result fits is OK exactly on success (R222). -/
theorem statusField_hdrWord_eq_zero_iff (h : r.Fits op) : statusField (r.hdrWord op) = 0x0#4 ↔ ∃ retry o, r = .done retry o := by
  cases r with
  | failed x =>
    have hkind : x.kind ≠ .ok := h
    simp [Result.hdrWord, Status.code_eq_zero_iff, hkind]
  | done retry o => simp [Result.hdrWord, Status.code]

/-- After a failure status no output group holds a value. -/
theorem respond_noOutput_of_status (s : State) (hfits : r.Fits op) (hstatus : statusField (r.hdrWord op) ≠ 0x0#4) :
    (s.respond op r).NoOutput := by
  cases r with
  | failed x => exact respond_failed_noOutput op s x
  | done retry o => exact absurd ((statusField_hdrWord_eq_zero_iff hfits).mpr ⟨retry, o, rfl⟩) hstatus

end GroupValue

/-! ### Every step keeps the invariant (spec/10_state.md R26, R38, R39) -/

/-- A status is one of R72's. -/
theorem Status.code_produced (st : Status) : st.code ≤ 0x9#4 ∨ st.code = 0xF#4 := by
  cases st <;> decide

/-- RSP_HDR of a result: a status of R72, and reserved bits 0 (R27). -/
theorem Result.hdrWord_bits (op : BitVec 4) (r : Result) :
    (statusField (r.hdrWord op) ≤ 0x9#4 ∨ statusField (r.hdrWord op) = 0xF#4) ∧
      (r.hdrWord op).extractLsb' 5 3 = 0#3 ∧ (r.hdrWord op).extractLsb' 12 20 = 0#20 := by
  cases r <;> simp [Result.hdrWord, Status.code_produced]

/-- A list holds a byte exactly below its length, as a Boolean. -/
theorem isSome_getElem?_eq_decide (l : List Byte) (i : Nat) : l[i]?.isSome = decide (i < l.length) :=
  Bool.eq_iff_iff.mpr (by simp)

/-- A response with a fitting result, to a request in REQ_HDR of the same OP, meets the invariant. -/
theorem respond_inv {s : State} {w : Word} {r : Result} (hbuf : Memory.wf s.reqBuf ∧ Memory.below 31 s.reqBuf) (hreq : s.reqHdr = some w)
    (hfits : r.Fits (opField w)) : (s.respond (opField w) r).Inv where
  idle := respond_busy ..
  reqBufForm := by rwa [respond_reqBuf]
  obufForm := respond_obufForm hfits
  mDataForm := respond_mDataForm hfits
  quiet h := by simp at h
  responded _ := ⟨w, r.hdrWord (opField w), r.errWord, by rw [respond_reqHdr, hreq], respond_rspHdr .., respond_rspErr .., resOpField_hdrWord ..,
    by rw [resOpField_hdrWord]; exact respond_onlyGroupOf s hfits⟩
  rspHdrBits h hh := by
    obtain rfl : r.hdrWord (opField w) = h := by simpa using hh
    exact Result.hdrWord_bits _ r
  failed h hh hstatus := by
    obtain rfl : r.hdrWord (opField w) = h := by simpa using hh
    exact respond_noOutput_of_status s hfits hstatus
  okNoError h hh hstatus := by
    obtain rfl : r.hdrWord (opField w) = h := by simpa using hh
    obtain ⟨retry, o, rfl⟩ := (statusField_hdrWord_eq_zero_iff hfits).mp hstatus
    exact respond_rspErr ..
  encGroup n hn := by
    obtain ⟨retry, frame, rfl, rfl⟩ := respond_olen_eq_some_iff.mp hn
    obtain ⟨-, hmin, hmax⟩ := hfits
    have hlen : (BitVec.ofNat 32 frame.length).toNat = frame.length := by
      rw [BitVec.toNat_ofNat]
      exact Nat.mod_eq_of_lt (by omega)
    rw [hlen]
    exact ⟨hmin, hmax, fun i => by rw [respond_done_enc_obuf, isSome_getElem?_eq_decide]⟩
  crcBits v hv := by
    obtain ⟨retry, c, rfl, rfl⟩ := respond_crcRes_eq_some_iff.mp hv
    exact setWidth32_reserved c
  descBits v hv := by
    obtain ⟨retry, rfl⟩ := respond_desc_eq_some_iff.mp hv
    exact hfits.2
  msgGroup v hv := by
    obtain ⟨retry, m, rfl, rfl⟩ := respond_msgHdr_eq_some_iff.mp hv
    obtain ⟨-, hmax⟩ := hfits
    have hlen : (m.hdrWord.extractLsb' 24 4).toNat = m.data.length := by
      rw [msgHdr_dlen, BitVec.toNat_ofNat]
      exact Nat.mod_eq_of_lt (by omega)
    rw [hlen]
    exact ⟨msgHdr_reserved m, hmax, fun i => by rw [respond_done_msg_mData, isSome_getElem?_eq_decide], m.crcWord,
      respond_done_msg_msgCrc .., msgCrc_reserved m⟩
  ackBits v hv := by
    obtain ⟨retry, rfl⟩ := respond_ackRes_eq_some_iff.mp hv
    exact hfits.2
  sensBits v hv := by
    obtain ⟨retry, rfl⟩ := respond_sensRes_eq_some_iff.mp hv
    exact hfits.2

/-- The invariant does not look at the host's lists, and at REQ_BUF only for its form. -/
theorem State.Inv.with_reqBuf {s : State} (h : s.Inv) (acts : List HostAction) (recs : List ReadRecord) {m : Memory}
    (hm : Memory.wf m ∧ Memory.below 31 m) : State.Inv { s with host := acts, reads := recs, reqBuf := m } :=
  { h with reqBufForm := hm }

/-- With no register holding a value the invariant holds, whatever the host's lists are. -/
theorem resetKeepingHost_inv (s : State) : s.resetKeepingHost.Inv where
  idle := rfl
  reqBufForm := ⟨Memory.wf_nil, nofun⟩
  obufForm := ⟨Memory.wf_nil, nofun⟩
  mDataForm := ⟨Memory.wf_nil, nofun⟩
  quiet _ := ⟨rfl, rfl, ⟨rfl, fun _ => rfl⟩, rfl, rfl, ⟨rfl, rfl, fun _ => rfl⟩, rfl, rfl⟩
  responded := nofun
  rspHdrBits := nofun
  failed := nofun
  okNoError := nofun
  encGroup := nofun
  crcBits := nofun
  descBits := nofun
  msgGroup := nofun
  ackBits := nofun
  sensBits := nofun

/-- Settles O55: the state after reset is what a reset leaves of itself. -/
theorem resetMeetsInvariant : Obligations.ResetMeetsInvariant := resetKeepingHost_inv State.reset

/-- Settles O56: a step that goes on takes a load or a store, answers a request, or resets, and each of these keeps the invariant. -/
theorem stepKeepsInvariant : Obligations.StepKeepsInvariant := by
  intro s t hinv hstep
  cases step_cases hstep with
  | idle => exact hinv
  | load a rest rec => exact hinv.with_reqBuf rest _ hinv.reqBufForm
  | store a rest m hhost hform => exact hinv.with_reqBuf rest _ (hform hinv.reqBufForm)
  | operation a rest w r hhost hbusy hfits => exact respond_inv hinv.reqBufForm rfl hfits
  | reset rest => exact resetKeepingHost_inv _

end Sys2Proof.Machine

namespace Sys2Proof.Machine

/-! ### The operation map (spec/30_encoding.md R71) -/

/-- A header with the reserved fields zero decodes by the operation map. -/
theorem decodeHeader_of_decodeOp {w : Word} {i : Instr} (hrsv0 : rsv0Field w = 0#4) (hrsv1 : rsv1Field w = 0#3)
    (h : decodeOp (fField w) (aField w) (lenField w) (opField w) = some i) : decodeHeader w = i := by
  simp [decodeHeader, decodeFields, hrsv0, hrsv1, h]

/-- An ENCODE word does what ENCODE of its fields does, whatever R84 names it. -/
theorem exec_decodeEncode (f a : Byte) (len : BitVec 5) (s : State) : exec (decodeEncode f a len) s = exec (.encode f a len) s := by
  cases h : pseudoWord f len with
  | false => rw [decodeEncode_of_not_pseudoWord a h]
  | true =>
    simp only [pseudoWord, Bool.or_eq_true, Bool.and_eq_true, beq_iff_eq] at h
    obtain ((((((⟨rfl, rfl⟩ | ⟨rfl, rfl⟩) | ⟨rfl, rfl⟩) | ⟨rfl, rfl⟩) | ⟨rfl, rfl⟩) | ⟨rfl, rfl⟩) | rfl) | rfl := h
    all_goals rfl

/-- Settles O5: with the reserved fields zero the operation map alone decides, row by row. -/
theorem operationMap : Obligations.OperationMap := by
  intro w hrsv0 hrsv1
  have hdecode (op : BitVec 4) (i : Instr) (hop : w.extractLsb' 0 4 = op) (h : decodeOp (fField w) (aField w) (lenField w) op = some i) :
      decodeHeader w = i := decodeHeader_of_decodeOp hrsv0 hrsv1 (by rwa [opField, hop])
  refine ⟨fun hop => hdecode 0x1#4 _ hop rfl, fun hop => hdecode 0x2#4 _ hop rfl, fun hop => hdecode 0x3#4 _ hop rfl, fun hop s => ?_,
    fun hop => hdecode 0x5#4 _ hop rfl, fun hop => hdecode 0x6#4 _ hop rfl, fun hop => hdecode 0x7#4 _ hop rfl⟩
  rw [hdecode 0x4#4 _ hop rfl]
  exact exec_decodeEncode _ _ _ s

/-! ### A stored header (spec/10_state.md R24, R39) -/

/-- A 32-bit store to REQ_HDR starts the instruction of the stored word. -/
theorem step_storeHeader {s : State} {data : BitVec 64} {rest : List HostAction} (hhost : s.host = .write 0 .b32 0x00 data :: rest) :
    step s = startRequest (data.setWidth 32) (decodeHeader (data.setWidth 32)) { s with host := rest } :=
  step_of_host hhost

/-- A request that starts while BUSY is 0 runs its instruction on the state in which it is under way. -/
theorem startRequest_of_idle {w : Word} {i : Instr} {s : State} (rest : List HostAction) (h : s.busy = false) :
    startRequest w i { s with host := rest } = exec i (s.underWay rest w) := by
  rw [startRequest]
  exact if_neg (by simp [h])

/-- Settles O11: the header is accepted, with the host's reads put away, and a response leaves the request as it is. -/
theorem storedHeaderIsAnswered : Obligations.StoredHeaderIsAnswered := by
  intro s t data rest hhost hstep
  rw [step_storeHeader hhost] at hstep
  obtain ⟨-, r, -, rfl⟩ := startRequest_next (opOf_decodeHeader _) hstep
  simp

/-! ### CRC (spec/40_crc.md R102) -/

/-- Settles O13: the bytes are read and their CRC is what CRC responds with. -/
theorem crcResult : Obligations.CrcResult := by
  intro f a len s d hl hbuf
  exact ⟨_, withMemRead_of_bufHolds hl hbuf _, rfl, respond_responds 0x1#4 (.done false (.crc (crc16 d))) s, respond_onlyGroupOf s rfl,
    respond_sameRequest _ _ s⟩

/-! ### The residue of the CRC (spec/40_crc.md R104 (c)) -/

/-- While the low bits are zero, a round only shifts. -/
theorem crcRounds_of_low_zero {n : Nat} {acc : Half} (h : ∀ i, i < n → acc.getLsbD i = false) : crcRounds n acc = acc >>> n := by
  induction n generalizing acc with
  | zero => rfl
  | succ n ih =>
    have hround : crcRound acc = acc >>> 1 := by rw [crcRound, h 0 (by omega), if_neg Bool.false_ne_true]
    rw [crcRounds, hround, ih fun i hi => ?_, ← BitVec.shiftRight_add, Nat.add_comm]
    rw [BitVec.getLsbD_ushiftRight]
    exact h (1 + i) (by omega)

/-- The low byte of the accumulator as the next input leaves its high byte. -/
theorem crcByte_lo (c : Half) : crcByte c (lo c) = (hi c).setWidth 16 := by
  have hlow : ∀ i, i < 8 → (c ^^^ (lo c).setWidth 16).getLsbD i = false := fun i hi => by
    simp [lo, hi, show i < 16 by omega]
  rw [crcByte, crcRounds_of_low_zero hlow]
  ext i hi
  simp only [lo, Machine.hi, BitVec.getElem_ushiftRight, BitVec.getLsbD_xor, BitVec.getLsbD_setWidth, BitVec.getElem_setWidth,
    BitVec.getLsbD_extractLsb']
  by_cases hi8 : i < 8
  · simp [hi8]
  · simp [hi8, BitVec.getLsbD_of_ge c (8 + i) (by omega)]

/-- An accumulator whose high byte is zero, with that byte as the next input, is left at zero. -/
theorem crcByte_setWidth_self (b : Byte) : crcByte (b.setWidth 16) b = 0x0000#16 := by
  rw [crcByte, BitVec.xor_self]
  rfl

/-- Settles O14: the low CRC byte shifts the accumulator down to its high byte, which the high CRC byte then cancels. -/
theorem crcResidueIsZero : Obligations.CrcResidueIsZero := by
  intro s
  calc crc16 (s ++ [lo (crc16 s), hi (crc16 s)])
    _ = crcByte (crcByte (crc16 s) (lo (crc16 s))) (hi (crc16 s)) := crcFrom_append crcInit s _
    _ = 0x0000#16 := by rw [crcByte_lo, crcByte_setWidth_self]

/-! ### Two sequences that differ in one byte (spec/40_crc.md R104 (d)) -/

/-- The top bit of a round tells which way it went: the polynomial has it, and a shift does not. -/
theorem crcRound_getLsbD_top (acc : Half) : (crcRound acc).getLsbD 15 = acc.getLsbD 0 := by
  unfold crcRound
  split
  next h => simp [h, crcPolyRefl]
  next h => simpa using h

/-- A round loses nothing: its top bit is the bit it shifted out. -/
theorem crcRound_injective : Function.Injective crcRound := by
  intro x y hxy
  have hlow : x.getLsbD 0 = y.getLsbD 0 := by rw [← crcRound_getLsbD_top, hxy, crcRound_getLsbD_top]
  have hshift : x >>> 1 = y >>> 1 := by
    cases hx : x.getLsbD 0
    all_goals
      simp only [crcRound, ← hlow, hx] at hxy
      simpa using hxy
  apply BitVec.eq_of_getLsbD_eq
  intro i hi
  cases i with
  | zero => exact hlow
  | succ i =>
    have hbit := congrArg (BitVec.getLsbD · i) hshift
    simpa [BitVec.getLsbD_ushiftRight, Nat.add_comm] using hbit

/-- Nor do several rounds. -/
theorem crcRounds_injective (n : Nat) : Function.Injective (crcRounds n) := by
  induction n with
  | zero => exact Function.injective_id
  | succ n ih => exact ih.comp crcRound_injective

/-- Different accumulators stay different over one byte. -/
theorem crcByte_injective_acc (b : Byte) : Function.Injective (crcByte · b) :=
  fun _ _ h => (BitVec.xor_left_inj _).mp (crcRounds_injective 8 h)

/-- Different bytes make a difference. -/
theorem crcByte_injective_byte (acc : Half) : Function.Injective (crcByte acc) := by
  intro b c h
  have hwide : b.setWidth 16 = c.setWidth 16 := (BitVec.xor_right_inj _).mp (crcRounds_injective 8 h)
  have hback := congrArg (BitVec.setWidth 8) hwide
  simpa using hback

/-- Different accumulators stay different over a sequence. -/
theorem crcFrom_injective (s : List Byte) : Function.Injective (crcFrom · s) := by
  induction s with
  | nil => exact Function.injective_id
  | cons b s ih => exact ih.comp (crcByte_injective_acc b)

/-- Sequences that differ in one byte have different CRCs. -/
theorem crc16_set_ne {s : List Byte} {i : Nat} {b : Byte} (hi : i < s.length) (hb : s[i]? ≠ some b) : crc16 (s.set i b) ≠ crc16 s := by
  intro h
  have hs : s = s.take i ++ s[i] :: s.drop (i + 1) := by simp
  rw [List.set_eq_take_append_cons_drop, if_pos hi] at h
  conv at h => rhs; rw [hs]
  simp only [crc16, crcFrom_append] at h
  have hbyte : b = s[i] := crcByte_injective_byte _ (crcFrom_injective _ h)
  exact hb (by rw [List.getElem?_eq_getElem hi, hbyte])

/-- An element inside a sequence (spec/00_scope.md R11). -/
theorem elemAt_of_lt {raw : List Byte} {i : Nat} (h : i < raw.length) : elemAt raw i = raw[i] := by simp [elemAt, h]

/-- A sequence of at least two bytes is the rest and its last two. -/
theorem slice_append_last_two {raw : List Byte} (h : 2 ≤ raw.length) :
    slice raw 0 (raw.length - crcLen) ++ [elemAt raw (raw.length - 2), elemAt raw (raw.length - 1)] = raw := by
  have hlast : raw.drop (raw.length - 2) = [elemAt raw (raw.length - 2), elemAt raw (raw.length - 1)] := by
    rw [List.drop_eq_getElem_cons (by omega), show raw.length - 2 + 1 = raw.length - 1 by omega, List.drop_eq_getElem_cons (by omega),
      List.drop_eq_nil_of_le (by omega), elemAt_of_lt, elemAt_of_lt]
  rw [← hlast, slice, crcLen, List.drop_zero, Nat.sub_zero, List.take_append_drop]

/-- A frame DECODE finds a good CRC in has residue 0x0000. -/
theorem crc16_of_good_crc {raw : List Byte} (h : 2 ≤ raw.length)
    (hlo : lo (crc16 (slice raw 0 (raw.length - crcLen))) = elemAt raw (raw.length - 2))
    (hhi : hi (crc16 (slice raw 0 (raw.length - crcLen))) = elemAt raw (raw.length - 1)) : crc16 raw = 0x0000#16 := by
  have hresidue := crcResidueIsZero (slice raw 0 (raw.length - crcLen))
  rwa [← lo, ← hi, hlo, hhi, slice_append_last_two h] at hresidue

/-- Settles O15: the good frame has residue 0, so the changed one has another, and its CRC cannot be good. -/
theorem singleByteCorruptionIsDetected : Obligations.SingleByteCorruptionIsDetected := by
  intro body i b f e len s frame hmin hmax hlen hi hb hbuf
  have hresidue : crc16 (frame.set i b) ≠ 0x0000#16 := crcResidueIsZero body ▸ crc16_set_ne hi hb
  have hl : (frame.set i b).length = len.toNat := by rw [List.length_set, hlen]
  have hframe : frame.length = body.length + 2 := by simp [frame]
  have hdecode := execDecode_of_bufHolds f e hl (by omega) (by omega) hbuf
  rw [← hl, decodeResult_of_crc_ne e ?_] at hdecode
  · obtain ⟨-, hcrcMismatch, -, -⟩ := rspHdrWord_decode
    obtain ⟨t, hrun, ⟨-, -, hhdr, -⟩, hnone, hsame⟩ := decode_fails hdecode hcrcMismatch rfl
    exact ⟨t, hrun, hhdr, hnone, hsame⟩
  · by_contra hgood
    obtain ⟨hlo, hhi⟩ : _ ∧ _ := by simpa only [not_or, not_not] using hgood
    exact hresidue (crc16_of_good_crc (by omega) hlo hhi)

end Sys2Proof.Machine

namespace Sys2Proof.Machine

/-! ### Failures, written once (spec/60_exceptions.md R222, R223) -/

/-- An instruction that responds with a failure completes with its words, and no output group holds a value. -/
theorem fails_of_respond {i : Instr} {op : BitVec 4} {x : Failure} {s : State} (h : exec i s = .next (s.respond op (.failed x)))
    {hdr err : Word} (hhdr : rspHdrWord op x.kind.retry x.kind = hdr) (herr : x.errWord = err) :
    ∃ t, exec i s = .next t ∧ t.Responds hdr err ∧ t.NoOutput ∧ s.SameRequest t := by
  subst hhdr herr
  exact ⟨_, h, respond_responds op (.failed x) s, respond_failed_noOutput _ _ _, respond_sameRequest _ _ _⟩

/-! ### LOOKUP of an unseeded code, and the wire function bytes (spec/41_function_catalog.md R120, R122, R124, R125) -/

/-- Where the catalog does not answer, LOOKUP fails with its operand as E0. -/
theorem lookupResult_of_none {f : Byte} (h : lookup f = none) : lookupResult f = .failed ⟨.unknownFunctionCode, f, 0#8, 0#8, 0#8⟩ := by
  simp [lookupResult, h]

/-- Settles O19: the catalog does not answer, whatever bit 7 is, and LOOKUP fails in every state. -/
theorem lookupUnknownCode : Obligations.LookupUnknownCode := by
  intro f a len s hcode
  have hrun : exec (.lookup f a len) s = .next (s.respond 0x3#4 (.failed ⟨.unknownFunctionCode, f, 0#8, 0#8, 0#8⟩)) := by
    rw [← lookupResult_of_none (lookup_eq_none_iff.mpr hcode)]
    rfl
  have hhdr : rspHdrWord 0x3#4 Status.unknownFunctionCode.retry .unknownFunctionCode = 0x00000303#32 := by decide
  exact fails_of_respond hrun hhdr (wordOfBytes_zeros f)

/-- A wire function byte runs the lookup of that byte. -/
theorem exec_of_encode_functionByte {i : Instr} {b : Byte} (h : encode i = .functionByte b) (s : State) : exec i s = lookupOp b s := by
  cases i <;> cases h <;> rfl

/-- Settles O20: each wire function byte runs the lookup of its code, which the catalog answers with the descriptor of that word. -/
theorem functionByteDescriptors : Obligations.FunctionByteDescriptors := by
  intro p hp s
  have hcatalog : ∃ b, encode p.1 = .functionByte b ∧ (lookup b).map LookupAnswer.word = some p.2 := by
    simp only [List.mem_cons, List.not_mem_nil, or_false] at hp
    obtain rfl | rfl | rfl | rfl | rfl | rfl | rfl | rfl | rfl | rfl | rfl | rfl | rfl | rfl | rfl | rfl := hp
    all_goals exact ⟨_, rfl, rfl⟩
  obtain ⟨b, hbyte, hword⟩ := hcatalog
  obtain ⟨r, hanswer, hr⟩ := Option.map_eq_some_iff.mp hword
  rw [exec_of_encode_functionByte hbyte, ← hr]
  exact lookupOp_completes hanswer s

/-! ### ENCODE: the pseudo-instructions' frames and the failures (spec/43_encoder.md R150 to R156) -/

/-- Settles O23: each pseudo-instruction is the ENCODE of its expansion, whose length its command admits. -/
theorem pseudoInstructionFrames : Obligations.PseudoInstructionFrames := by
  intro a len p hp s d haddr hbound hl hbuf
  simp only [List.mem_cons, List.not_mem_nil, or_false] at hp
  obtain rfl | rfl | rfl | rfl | rfl | rfl | rfl | rfl := hp
  · exact encodeFrame 0x41#8 a 0#5 s d haddr (.inl ⟨by decide, rfl⟩) hl hbuf
  · exact encodeFrame 0x42#8 a 0#5 s d haddr (.inl ⟨by decide, rfl⟩) hl hbuf
  · exact encodeFrame 0x43#8 a 0#5 s d haddr (.inl ⟨by decide, rfl⟩) hl hbuf
  · exact encodeFrame 0x44#8 a 3#5 s d haddr (.inr (.inl ⟨rfl, rfl⟩)) hl hbuf
  · exact encodeFrame 0x45#8 a 2#5 s d haddr (.inr (.inr (.inl ⟨rfl, rfl⟩))) hl hbuf
  · exact encodeFrame 0x46#8 a len s d haddr (.inr (.inr (.inr ⟨by decide, hbound⟩))) hl hbuf
  · exact encodeFrame 0x64#8 a len s d haddr (.inr (.inr (.inr ⟨by decide, hbound⟩))) hl hbuf
  · exact encodeFrame 0x65#8 a 0#5 s d haddr (.inl ⟨by decide, rfl⟩) hl hbuf

/-- The first check: an address that is not valid (R150). -/
theorem encodeCheck_of_invalidAddress {a : Byte} (f : Byte) (len : Nat) (haddr : ¬addrValid a = true) :
    encodeCheck f a len = some ⟨.invalidAddress, a, 0#8, 0#8, 0#8⟩ := by
  simp [encodeCheck, haddr]

/-- The second: bit 7 of the function byte (R151). -/
theorem encodeCheck_of_errBit {f a : Byte} (len : Nat) (haddr : addrValid a = true) (herr : errBit f = true) :
    encodeCheck f a len = some ⟨.invalidFunctionCode, f, 0#8, 0#8, 0#8⟩ := by
  simp [encodeCheck, haddr, herr]

/-- The third: a code the catalog does not know (R152). -/
theorem encodeCheck_of_unknown {f a : Byte} (len : Nat) (haddr : addrValid a = true) (herr : errBit f = false) (hlookup : lookup f = none) :
    encodeCheck f a len = some ⟨.unknownFunctionCode, f, 0#8, 0#8, 0#8⟩ := by
  simp [encodeCheck, haddr, herr, hlookup]

/-- The fourth, for a fixed command length that is not met (R153). -/
theorem encodeCheck_of_fixed {f a : Byte} {len : Nat} {r : LookupAnswer} {n : BitVec 5} (haddr : addrValid a = true) (herr : errBit f = false)
    (hlookup : lookup f = some r) (hcmd : r.desc.cmd = .fixed n) (hlen : 3 + len + 2 ≠ n.toNat) :
    encodeCheck f a len = some ⟨.dataLengthOutOfRange, lenByte len, n.setWidth 8, 0#8, 0#8⟩ := by
  simp [encodeCheck, haddr, herr, hlookup, encodeLengthCheck, hcmd, hdrLen, crcLen, hlen]

/-- The fourth, for more than 11 bytes of a variable command (R154). -/
theorem encodeCheck_of_varying {f a : Byte} {len : Nat} {r : LookupAnswer} (haddr : addrValid a = true) (herr : errBit f = false)
    (hlookup : lookup f = some r) (hcmd : r.desc.cmd = .varying) (hlen : 11 < len) :
    encodeCheck f a len = some ⟨.dataLengthOutOfRange, lenByte len, 16#8, 0#8, 0#8⟩ := by
  simp [encodeCheck, haddr, herr, hlookup, encodeLengthCheck, hcmd, dataMax, hlen, frameMax, lenByte]

/-- ENCODE with a check that fails responds with its failure and reads no data byte (R150). -/
theorem exec_encode_of_check {f a : Byte} {len : BitVec 5} {x : Failure} (s : State) (h : encodeCheck f a len.toNat = some x) :
    exec (.encode f a len) s = .next (s.respond 0x4#4 (.failed x)) := by
  show encodeOp f a len s = _
  rw [encodeOp, h]

/-- A function byte without the error bit is its low seven bits. -/
theorem and_0x7F_of_not_errBit {f : Byte} (h : errBit f = false) : f &&& 0x7F#8 = f := by
  revert f; decide

/-- The function bytes with a fixed command length, each with that length (R120). -/
def fixedCommands : List (Byte × BitVec 5) := [(0x41#8, 5#5), (0x42#8, 5#5), (0x43#8, 5#5), (0x44#8, 8#5), (0x45#8, 7#5), (0x65#8, 5#5)]

/-- Each of them is in the catalog, with that command length. -/
theorem lookup_of_mem_fixedCommands {p : Byte × BitVec 5} (hp : p ∈ fixedCommands) :
    errBit p.1 = false ∧ ∃ r, lookup p.1 = some r ∧ r.desc.cmd = .fixed p.2 := by
  simp only [fixedCommands, List.mem_cons, List.not_mem_nil, or_false] at hp
  obtain rfl | rfl | rfl | rfl | rfl | rfl := hp
  all_goals exact ⟨rfl, _, rfl, rfl⟩

/-- RSP_HDR of the four failures of ENCODE: RES_OP 4, RETRY 0 (R150, R231). -/
theorem rspHdrWord_encode :
    rspHdrWord 0x4#4 Status.invalidAddress.retry .invalidAddress = 0x00000401#32 ∧
    rspHdrWord 0x4#4 Status.invalidFunctionCode.retry .invalidFunctionCode = 0x00000402#32 ∧
    rspHdrWord 0x4#4 Status.unknownFunctionCode.retry .unknownFunctionCode = 0x00000403#32 ∧
    rspHdrWord 0x4#4 Status.dataLengthOutOfRange.retry .dataLengthOutOfRange = 0x00000404#32 := by
  decide

/-- Settles O24: the checks of ENCODE in their order, each failing with its own offending bytes. -/
theorem encodeFailures : Obligations.EncodeFailures := by
  intro f a len s valid fails
  have hvalid : valid ↔ addrValid a = true := (addrValid_iff a).symm
  obtain ⟨hinvalid, hbit7, hunknown, hrange⟩ := rspHdrWord_encode
  have hlength (n : Byte) (h : encodeCheck f a len.toNat = some ⟨.dataLengthOutOfRange, lenByte len.toNat, n, 0#8, 0#8⟩) :
      fails 0x00000404#32 (0#16 ++ n ++ len.setWidth 8) := fails_of_respond (exec_encode_of_check s h) hrange (wordOfBytes_length len n)
  rw [hvalid]
  refine ⟨fun haddr => ?_, fun haddr herr => ?_, fun haddr herr hcode => ?_, fun haddr p hp hf hlen => ?_, fun haddr hf hlen => ?_⟩
  · exact fails_of_respond (exec_encode_of_check s (encodeCheck_of_invalidAddress f _ haddr)) hinvalid (wordOfBytes_zeros a)
  · exact fails_of_respond (exec_encode_of_check s (encodeCheck_of_errBit _ haddr herr)) hbit7 (wordOfBytes_zeros f)
  · have hlookup : lookup f = none := lookup_eq_none_iff.mpr (by rwa [and_0x7F_of_not_errBit herr])
    exact fails_of_respond (exec_encode_of_check s (encodeCheck_of_unknown _ haddr herr hlookup)) hunknown (wordOfBytes_zeros f)
  · obtain ⟨⟨g, n⟩, hmem, rfl⟩ := List.mem_map.mp (show p ∈ fixedCommands.map (Prod.map id (BitVec.setWidth 8)) from hp)
    obtain ⟨herr, r, hlookup, hcmd⟩ := lookup_of_mem_fixedCommands hmem
    obtain rfl : f = g := hf
    have hne : 3 + len.toNat + 2 ≠ n.toNat := by
      rw [← BitVec.toNat_setWidth_of_le (show 5 ≤ 8 by decide)]
      exact hlen
    exact hlength _ (encodeCheck_of_fixed haddr herr hlookup hcmd hne)
  · obtain rfl | rfl := hf
    all_goals exact hlength _ (encodeCheck_of_varying haddr rfl rfl rfl hlen)

/-! ### The wire ack bytes (spec/45_classifier.md R202) -/

/-- A byte of a class completes with that class in ACK_RES and the retry hint of the class. -/
theorem classifyAckOp_completes {k : Byte} {retry : Bool} {w : Word} (h : classifyAckResult k = .done retry (.ack w)) (s : State) :
    ∃ t, classifyAckOp k s = .next t ∧ t.ackRes = some w ∧ t.Responds (if retry then 0x00000610#32 else 0x00000600#32) 0#32 ∧
      t.OnlyGroupOf 0x6#4 ∧ s.SameRequest t := by
  have honly := respond_onlyGroupOf s (classifyAckResult_fits k)
  rw [classifyAckOp, h]
  rw [h] at honly
  obtain ⟨hresponds, hack⟩ := respond_done_ack retry w s
  exact ⟨_, rfl, hack, hresponds, honly, respond_sameRequest _ _ s⟩

/-- Settles O30: each wire ack byte runs the classification of its code, read off class by class. -/
theorem ackByteClasses : Obligations.AckByteClasses := by
  intro p hp s
  simp only [List.mem_cons, List.not_mem_nil, or_false] at hp
  obtain rfl | rfl | rfl | rfl | rfl | rfl | rfl | rfl | rfl | rfl | rfl | rfl := hp
  all_goals exact classifyAckOp_completes rfl s

/-! ### CLASSIFY_SENSOR (spec/45_classifier.md R204, R206) -/

/-- SENS_RES of a fault is its code above the byte 2 (spec/10_state.md R34). -/
theorem sensResWord_fault (b : Byte) : sensResWord .fault b = 0#16 ++ b ++ 2#8 := ackResWord_nack b

/-- The no-fault value is classified as NO_FAULT. -/
theorem sensorByteResult_noFault : sensorByteResult sensorNoFault = .done false (.sens (sensResWord .noFault 0#8)) := if_pos rfl

/-- A code the ROM defines is classified as FAULT. -/
theorem sensorByteResult_fault {b : Byte} (hne : b ≠ sensorNoFault) (h : sensorFaultPresent b = true) :
    sensorByteResult b = .done false (.sens (sensResWord .fault b)) := by
  rw [sensorByteResult, if_neg hne, if_pos h]

/-- Any other byte fails, and is itself E0. -/
theorem sensorByteResult_unknown {b : Byte} (hne : b ≠ sensorNoFault) (h : sensorFaultPresent b = false) :
    sensorByteResult b = .failed ⟨.unknownSensorFault, b, 0#8, 0#8, 0#8⟩ := by
  rw [sensorByteResult, if_neg hne, h, if_neg Bool.false_ne_true]

/-- A result of group SENS leaves its word there, and the response words of a success. -/
theorem respond_done_sens (w : Word) (s : State) :
    (s.respond 0x7#4 (.done false (.sens w))).Responds 0x00000700#32 0#32 ∧ (s.respond 0x7#4 (.done false (.sens w))).sensRes = some w :=
  ⟨respond_responds 0x7#4 (.done false (.sens w)) s, rfl⟩

/-- A reply that is not inspected: NOT_APPLICABLE, and no buffer byte is read. -/
theorem execClassifySensor_notApplicable {f : Byte} (a : Byte) {len : BitVec 5} (s : State) (h : f ≠ 0x45#8 ∨ len.toNat ≤ sensorFaultIndex) :
    execClassifySensor f a len s = .next (s.respond 0x7#4 (.done false (.sens (sensResWord .notApplicable 0#8)))) := if_pos h

/-- Settles O31: the first branch of R206, taken before any byte is read. -/
theorem classifySensorNotApplicable : Obligations.ClassifySensorNotApplicable := by
  intro f a len s h
  obtain ⟨hresponds, hsens⟩ := respond_done_sens (sensResWord .notApplicable 0#8) s
  exact ⟨_, execClassifySensor_notApplicable a s h, hsens, hresponds, respond_onlyGroupOf s (sensOutput_fits _ _), respond_sameRequest _ _ s⟩

/-- Settles O32: the fault byte is read and decides the result, class by class. -/
theorem classifySensorFaultByte : Obligations.ClassifySensorFaultByte := by
  intro a b len s hindex hb
  refine ⟨_, execClassifySensor_byte a b hindex hb, respond_onlyGroupOf s (sensorByteResult_fits b), respond_sameRequest _ _ s, ?_, ?_, ?_⟩
  · rintro rfl
    rw [sensorByteResult_noFault]
    exact respond_done_sens _ s
  · intro hne hpresent
    rw [sensorByteResult_fault hne hpresent, ← sensResWord_fault]
    exact respond_done_sens _ s
  · intro hne habsent
    have hhdr : rspHdrWord 0x7#4 Status.unknownSensorFault.retry .unknownSensorFault = 0x00000709#32 := by decide
    rw [sensorByteResult_unknown hne habsent, ← wordOfBytes_zeros, ← hhdr]
    exact ⟨respond_responds 0x7#4 (.failed _) s, respond_failed_noOutput _ _ _⟩

/-- The no-fault value is the rank-th byte of those outside 0x21..0x44, and so outside (R204). -/
theorem sensorNoFault_outside : ¬(0x21#8 ≤ sensorNoFault ∧ sensorNoFault ≤ 0x44#8) := by
  have hrank : Config.sensorNoFaultRank.val < 220 := Config.sensorNoFaultRank.isLt
  unfold sensorNoFault
  split
  all_goals
    simp only [BitVec.le_def, BitVec.toNat_ofNat]
    omega

/-- The ROM defines no code outside 0x21..0x44 (R204). -/
theorem sensorFaultPresent_outside {b : Byte} (h : ¬(0x21#8 ≤ b ∧ b ≤ 0x44#8)) : sensorFaultPresent b = false := by
  have hrange : inSensorFaultRange b = false := by
    rw [inSensorFaultRange, ← Bool.decide_and]
    exact decide_eq_false h
  rw [sensorFaultPresent, hrange, Bool.false_and]

/-- Settles O33: outside the range no code is defined, so a fault byte there is unknown unless it is the no-fault value. -/
theorem sensorCodesOutsideTheRange : Obligations.SensorCodesOutsideTheRange := by
  refine ⟨sensorNoFault_outside, fun b hb => ⟨sensorFaultPresent_outside hb, fun hne a len s hindex hread => ?_⟩⟩
  obtain ⟨t, hrun, -, -, -, -, hunknown⟩ := classifySensorFaultByte a b len s hindex hread
  exact ⟨t, hrun, hunknown hne (sensorFaultPresent_outside hb)⟩

/-! ### The host's outcome names (spec/45_classifier.md R207, R209) -/

/-- REPLY_ACK is classified as SUCCESS. -/
theorem classifyAckResult_reply : classifyAckResult 0x10#8 = .done false (.ack (ackResWord .success 0#8)) := rfl

/-- COMMAND_ACK is classified as COMMAND. -/
theorem classifyAckResult_command : classifyAckResult 0x20#8 = .done false (.ack (ackResWord .command 0#8)) := rfl

/-- Which class CLASSIFY_ACK leaves in ACK_RES, and when it leaves none (R202). -/
theorem ackRes_class (op : BitVec 4) (k : Byte) (s : State) :
    let ackRes := (s.respond op (classifyAckResult k)).ackRes
    (ackClassIs .success ackRes = true ↔ k = 0x10#8) ∧ (ackClassIs .nack ackRes = true ↔ 0x01#8 ≤ k ∧ k ≤ 0x0A#8) ∧
      (ackRes.isNone = true ↔ k ≠ 0x10#8 ∧ k ≠ 0x20#8 ∧ ¬(0x01#8 ≤ k ∧ k ≤ 0x0A#8)) := by
  have hdone (retry : Bool) (w : Word) : (s.respond op (.done retry (.ack w))).ackRes = some w := rfl
  have hfailed (x : Failure) : (s.respond op (.failed x)).ackRes = none := rfl
  rw [← nackPresent_iff]
  by_cases hreply : k = 0x10#8
  · have hnack : nackPresent 0x10#8 = false := by decide
    simp [hreply, classifyAckResult_reply, hdone, ackClassIs_ackResWord, hnack]
  by_cases hcommand : k = 0x20#8
  · have hnack : nackPresent 0x20#8 = false := by decide
    simp [hcommand, classifyAckResult_command, hdone, ackClassIs_ackResWord, hnack]
  by_cases hnack : nackPresent k = true
  · simp [classifyAckResult_of_nack hnack, hdone, ackClassIs_ackResWord, hreply, hnack]
  · simp [classifyAckResult_of_unknown hreply hcommand hnack, hfailed, hreply, hcommand, hnack]

/-- Which class CLASSIFY_SENSOR of a fault byte leaves in SENS_RES, and when it leaves none (R206). -/
theorem sensRes_class (op : BitVec 4) (b : Byte) (s : State) :
    let sensRes := (s.respond op (sensorByteResult b)).sensRes
    (sensorClassIs .noFault sensRes = true ↔ b = sensorNoFault) ∧ sensorClassIs .notApplicable sensRes = false ∧
      (sensorClassIs .fault sensRes = true ↔ b ≠ sensorNoFault ∧ sensorFaultPresent b = true) ∧
      (sensRes.isNone = true ↔ b ≠ sensorNoFault ∧ sensorFaultPresent b = false) := by
  have hdone (w : Word) : (s.respond op (.done false (.sens w))).sensRes = some w := rfl
  have hfailed (x : Failure) : (s.respond op (.failed x)).sensRes = none := rfl
  by_cases hne : b = sensorNoFault
  · subst hne
    simp [sensorByteResult_noFault, hdone, sensorClassIs_sensResWord]
  cases hpresent : sensorFaultPresent b with
  | true => simp [sensorByteResult_fault hne hpresent, hdone, sensorClassIs_sensResWord, hne]
  | false => simp [sensorByteResult_unknown hne hpresent, hfailed, hne]

/-- A fault byte that holds no value is the fault of reading it (spec/10_state.md R25, R38). -/
theorem execClassifySensor_of_none (a : Byte) {len : BitVec 5} {s : State} (h : sensorFaultIndex < len.toNat)
    (hb : Memory.read s.reqBuf sensorFaultIndex = none) :
    execClassifySensor 0x45#8 a len s = .fault (.valuelessRead (0x10 + sensorFaultIndex)) := by
  rw [execClassifySensor, if_neg (by simp [h])]
  simp [withMemRead, State.memRead, Memory.readBytes, hb, reqBufBase]

/-- Inversion: a CLASSIFY_SENSOR that went on looked at no byte, or at a fault byte that holds a value (R206). -/
theorem execClassifySensor_next {f a : Byte} {len : BitVec 5} {s u : State} (h : execClassifySensor f a len s = .next u) :
    ¬(f = 0x45#8 ∧ sensorFaultIndex < len.toNat) ∧ u = s.respond 0x7#4 (.done false (.sens (sensResWord .notApplicable 0#8))) ∨
      (f = 0x45#8 ∧ sensorFaultIndex < len.toNat) ∧
        ∃ b, Memory.read s.reqBuf sensorFaultIndex = some b ∧ u = s.respond 0x7#4 (sensorByteResult b) := by
  by_cases hinspected : f = 0x45#8 ∧ sensorFaultIndex < len.toNat
  · obtain ⟨rfl, hindex⟩ := hinspected
    refine .inr ⟨⟨rfl, hindex⟩, ?_⟩
    cases hread : Memory.read s.reqBuf sensorFaultIndex with
    | some b =>
      rw [execClassifySensor_byte a b hindex hread] at h
      exact ⟨b, rfl, (Host.Outcome.next.inj h).symm⟩
    | none => cases (execClassifySensor_of_none a hindex hread).symm.trans h
  · rw [execClassifySensor_notApplicable a s (by rw [← Nat.not_lt]; exact not_and_or.mp hinspected)] at h
    exact .inl ⟨hinspected, (Host.Outcome.next.inj h).symm⟩

/-- Accepted of a Read-Sensor reply, by the two classes (R209). -/
theorem accepted_readSensor_iff {ackRes sensRes : Option Word} :
    accepted ackRes true sensRes = true ↔
      ackClassIs .success ackRes = true ∧ (sensorClassIs .noFault sensRes = true ∨ sensorClassIs .notApplicable sensRes = true) := by
  simp [accepted]

/-- The table gap of a Read-Sensor reply: either register holds no value (R209). -/
theorem tableGap_readSensor_iff {ackRes sensRes : Option Word} :
    tableGap ackRes true sensRes = true ↔ ackRes.isNone = true ∨ sensRes.isNone = true := by
  simp [tableGap]

/-- Settles O34: the names are put together from the classes the two registers were left with. -/
theorem outcomeNames : Obligations.OutcomeNames := by
  intro f g k a len len' s s' t u hack hsensor nack inspected faultByte
  obtain rfl := Host.Outcome.next.inj hack
  obtain ⟨hsuccess, hnack, hgap⟩ := ackRes_class 0x6#4 k s'
  have haccepted (ackRes : Option Word) : accepted ackRes false none = ackClassIs .success ackRes := by simp [accepted]
  have htableGap (ackRes : Option Word) : tableGap ackRes false none = ackRes.isNone := by simp [tableGap]
  refine ⟨by rw [haccepted, hsuccess], hnack, by rw [htableGap, hgap], ?_⟩
  rw [accepted_readSensor_iff, faultClassified, tableGap_readSensor_iff, hsuccess, hgap]
  obtain ⟨hnot, rfl⟩ | ⟨hinspected, b, hread, rfl⟩ := execClassifySensor_next (a := a) hsensor
  · have hnot : ¬inspected := hnot
    obtain ⟨-, hsens⟩ := respond_done_sens (sensResWord .notApplicable 0#8) s
    rw [hsens]
    simp [sensorClassIs_sensResWord, hnot, nack]
  · have hinspected : inspected := hinspected
    have hfault (p : Byte → Prop) : faultByte p ↔ p b := by
      show (∃ b, Memory.read s.reqBuf sensorFaultIndex = some b ∧ p b) ↔ p b
      simp [hread]
    obtain ⟨hnoFault, hna, hdefined, hunknown⟩ := sensRes_class 0x7#4 b s
    rw [hnoFault, hna, hdefined, hunknown, hfault, hfault, hfault]
    simp [hinspected, nack]

/-! ### ILLEGAL_OP (spec/60_exceptions.md R221) -/

/-- Settles O35: the failure of R221, its bytes put together from the fields of the header. -/
theorem illegalOpResult : Obligations.IllegalOpResult := by
  intro f a rsv1 len rsv0 op s
  have hdone := exec_illegalOp_completes f a rsv1 len rsv0 op s
  have he0 : op.setWidth 8 = 0#4 ++ op := BitVec.setWidth_eq_append (by decide)
  rwa [rspHdrWord_illegalOp, he0] at hdone

end Sys2Proof.Machine

namespace Sys2Proof.Machine

/-! ### What every operation leaves behind (spec/10_state.md R39; spec/60_exceptions.md R222) -/

/-- After a success exactly the operation's own group holds a value; VALIDATE has none. -/
theorem respond_done_groups {op : BitVec 4} {o : Output} (retry : Bool) (s : State) (hfits : o.Fits op) :
    let t := s.respond op (.done retry o)
    (t.olen.isSome = true ↔ op = 0x4#4) ∧ (t.crcRes.isSome = true ↔ op = 0x1#4) ∧ (t.desc.isSome = true ↔ op = 0x3#4) ∧
      (t.msgHdr.isSome = true ↔ op = 0x5#4) ∧ (t.ackRes.isSome = true ↔ op = 0x6#4) ∧ (t.sensRes.isSome = true ↔ op = 0x7#4) := by
  cases o
  all_goals
    simp only [Output.Fits] at hfits
    simp [State.respond, State.done, hfits]

/-- Settles O36: an instruction that goes on has responded with a result that fits its operation. -/
theorem operationFrame : Obligations.OperationFrame := by
  intro i s t hrun
  obtain ⟨r, hfits, rfl⟩ := exec_next hrun
  refine ⟨respond_sameRequest _ _ s, respond_busy .., respond_rspValid .., r.hdrWord (opOf i), r.errWord, respond_rspHdr .., respond_rspErr ..,
    resOpField_hdrWord .., respond_onlyGroupOf s hfits, respond_noOutput_of_status s hfits, fun hok => ?_⟩
  obtain ⟨retry, o, rfl⟩ := (statusField_hdrWord_eq_zero_iff hfits).mp hok
  exact ⟨rfl, respond_done_groups retry s hfits⟩

/-- Settles O37: an instruction that does not respond has met a byte below LEN that holds no value. -/
theorem onlyValuelessBytesStop : Obligations.OnlyValuelessBytesStop := by
  intro i s
  obtain ⟨r, -, hrun⟩ | hfault := exec_cases i s
  · exact .inl ⟨_, hrun⟩
  · exact .inr hfault

/-! ### Operand bytes that hold no value (spec/10_state.md R25, R38; spec/20_memory.md R52) -/

/-- A valid address, and a code and length its command admits, pass the checks of ENCODE. -/
theorem encodeCheck_of_admitted {f a : Byte} {len : Nat} (haddr : addrValid a = true)
    (h : f ∈ ([0x41#8, 0x42#8, 0x43#8, 0x65#8] : List Byte) ∧ len = 0 ∨ f = 0x44#8 ∧ len = 3 ∨ f = 0x45#8 ∧ len = 2 ∨
      f ∈ ([0x46#8, 0x64#8] : List Byte) ∧ len ≤ 11) : encodeCheck f a len = none := by
  obtain ⟨herr, r, hlookup, hbound, hfixed⟩ := lookup_of_admitted h
  exact encodeCheck_eq_none haddr herr hlookup (encodeLengthCheck_eq_none hbound hfixed)

section Valueless

variable {s : State} {k : Nat} {len : BitVec 5} (hk : k < len.toNat) (hnone : Memory.read s.reqBuf k = none)
  (hfirst : ∀ j, j < k → (Memory.read s.reqBuf j).isSome = true)
include hk hnone hfirst

/-- ENCODE whose checks pass is the fault of the first data byte that holds no value. -/
theorem encodeOp_of_none {f a : Byte} (hcheck : encodeCheck f a len.toNat = none) :
    encodeOp f a len s = .fault (.valuelessRead (0x10 + k)) := by
  rw [encodeOp, hcheck]
  exact withMemRead_of_none hk hnone hfirst _

/-- DECODE of an admitted length is the fault of the first byte that holds no value. -/
theorem execDecode_of_none (f a : Byte) (hmin : 5 ≤ len.toNat) (hmax : len.toNat ≤ 16) :
    execDecode f a len s = .fault (.valuelessRead (0x10 + k)) := by
  rw [execDecode, decodeLengthCheck_none.mpr ⟨hmin, hmax⟩]
  exact withMemRead_of_none hk hnone hfirst _

end Valueless

/-- Settles O38: each of these operations comes to its read of the buffer, which is the fault of the first byte that holds no value. -/
theorem valuelessOperandFaults : Obligations.ValuelessOperandFaults := by
  refine ⟨fun f a len s k hk hnone hfirst => ?_, fun a len s hindex hnone => execClassifySensor_of_none a hindex hnone⟩
  refine ⟨withMemRead_of_none hk hnone hfirst _, execDecode_of_none hk hnone hfirst f a, fun hvalid => ?_⟩
  have haddr : addrValid a = true := (addrValid_iff a).mpr hvalid
  have hfault {f : Byte} (h : _) : encodeOp f a len s = .fault (.valuelessRead (0x10 + k)) :=
    encodeOp_of_none hk hnone hfirst (encodeCheck_of_admitted (f := f) haddr h)
  refine ⟨?_, fun h3 => ?_, fun h2 => ?_, fun h11 => ⟨?_, ?_⟩⟩
  · rintro (h | h | ⟨hf, h11⟩)
    · exact hfault (.inr (.inl h))
    · exact hfault (.inr (.inr (.inl h)))
    · exact hfault (.inr (.inr (.inr ⟨by simpa using hf, h11⟩)))
  · obtain rfl : len = 3#5 := BitVec.eq_of_toNat_eq h3
    exact hfault (.inr (.inl ⟨rfl, rfl⟩))
  · obtain rfl : len = 2#5 := BitVec.eq_of_toNat_eq h2
    exact hfault (.inr (.inr (.inl ⟨rfl, rfl⟩)))
  · exact hfault (.inr (.inr (.inr ⟨by decide, h11⟩)))
  · exact hfault (.inr (.inr (.inr ⟨by decide, h11⟩)))

/-! ### The response depends on the request alone (spec/10_state.md R20, R39; spec/20_memory.md R58) -/

/-- Byte arrays that agree on a run of indexes give the same bytes there, or the same first index that holds none. -/
theorem Memory.readBytes_congr {m m' : Memory} {a n : Nat} (h : ∀ k, a ≤ k → k < a + n → Memory.read m k = Memory.read m' k) :
    Memory.readBytes m a n = Memory.readBytes m' a n := by
  induction n generalizing a with
  | zero => rfl
  | succ n ih => rw [Memory.readBytes, Memory.readBytes, h a (by omega) (by omega), ih fun k hlo hhi => h k (by omega) (by omega)]

/-- The two outcomes are the same fault, or responses of the two states with one result. -/
def SameAnswer (op : BitVec 4) (s s' : State) (x x' : Host.Outcome State Fault Refusal) : Prop :=
  (∃ r, x = .next (s.respond op r) ∧ x' = .next (s'.respond op r)) ∨ ∃ e, x = .fault e ∧ x' = .fault e

/-- Reading the buffer, then responding: the same answer where the bytes read are the same. -/
theorem withMemRead_sameAnswer {op : BitVec 4} {i n m : Nat} {s s' : State} {k : List Byte → Result} (hm : i + n ≤ m)
    (h : ∀ j, j < m → Memory.read s.reqBuf j = Memory.read s'.reqBuf j) :
    SameAnswer op s s' (withMemRead i n s fun d => .next (s.respond op (k d))) (withMemRead i n s' fun d => .next (s'.respond op (k d))) := by
  have hread : s.memRead i n = s'.memRead i n := Memory.readBytes_congr fun j _ hj => h j (by omega)
  rw [withMemRead, withMemRead, ← hread]
  cases s.memRead i n with
  | ok d => exact .inl ⟨k d, rfl, rfl⟩
  | error j => exact .inr ⟨_, rfl, rfl⟩

/-- ENCODE reads bytes below LEN at most. -/
theorem encodeOp_sameAnswer (f a : Byte) {len : BitVec 5} {s s' : State}
    (h : ∀ j, j < len.toNat → Memory.read s.reqBuf j = Memory.read s'.reqBuf j) :
    SameAnswer 0x4#4 s s' (encodeOp f a len s) (encodeOp f a len s') := by
  unfold encodeOp
  cases encodeCheck f a len.toNat with
  | some x => exact .inl ⟨.failed x, rfl, rfl⟩
  | none => exact withMemRead_sameAnswer (by omega) h

/-- So does DECODE. -/
theorem execDecode_sameAnswer (f a : Byte) {len : BitVec 5} {s s' : State}
    (h : ∀ j, j < len.toNat → Memory.read s.reqBuf j = Memory.read s'.reqBuf j) :
    SameAnswer 0x5#4 s s' (execDecode f a len s) (execDecode f a len s') := by
  unfold execDecode
  cases decodeLengthCheck len.toNat with
  | some x => exact .inl ⟨.failed x, rfl, rfl⟩
  | none => exact withMemRead_sameAnswer (by omega) h

/-- CLASSIFY_SENSOR reads its fault byte at most, which lies below LEN. -/
theorem execClassifySensor_sameAnswer (f a : Byte) {len : BitVec 5} {s s' : State}
    (h : ∀ j, j < len.toNat → Memory.read s.reqBuf j = Memory.read s'.reqBuf j) :
    SameAnswer 0x7#4 s s' (execClassifySensor f a len s) (execClassifySensor f a len s') := by
  unfold execClassifySensor
  split
  next => exact .inl ⟨.done false (.sens (sensResWord .notApplicable 0#8)), rfl, rfl⟩
  next hinspected =>
    simp only [not_or, not_le] at hinspected
    exact withMemRead_sameAnswer (by omega) h

/-- Two states whose buffers agree below LEN get the same answer from every instruction. -/
theorem exec_sameAnswer (i : Instr) {s s' : State} (h : ∀ k, k < lenOf i → Memory.read s.reqBuf k = Memory.read s'.reqBuf k) :
    SameAnswer (opOf i) s s' (exec i s) (exec i s') := by
  cases i with
  | crc f a len => exact withMemRead_sameAnswer (by simp [lenOf]) h
  | validate f a len => exact .inl ⟨validateResult a, rfl, rfl⟩
  | lookup f a len => exact .inl ⟨lookupResult f, rfl, rfl⟩
  | decode f a len => exact execDecode_sameAnswer f a h
  | classifyAck f a len => exact .inl ⟨classifyAckResult a, rfl, rfl⟩
  | classifySensor f a len => exact execClassifySensor_sameAnswer f a h
  | illegalOp f a rsv1 len rsv0 op => exact .inl ⟨.failed (illegalOpFailure rsv1 len rsv0 op), rfl, rfl⟩
  | encode | go | stop | status | setdemand | readsensor | storecfg | readid | config => exact encodeOp_sameAnswer _ _ h
  | _ => exact .inl ⟨_, rfl, rfl⟩

/-- What a response leaves in the response registers and the output groups does not depend on the state it is given to. -/
theorem respond_registers_congr (op : BitVec 4) (r : Result) (s s' : State) :
    (s'.respond op r).rspHdr = (s.respond op r).rspHdr ∧ (s'.respond op r).rspErr = (s.respond op r).rspErr ∧
      (s'.respond op r).obuf = (s.respond op r).obuf ∧ (s'.respond op r).olen = (s.respond op r).olen ∧
      (s'.respond op r).crcRes = (s.respond op r).crcRes ∧ (s'.respond op r).desc = (s.respond op r).desc ∧
      (s'.respond op r).msgHdr = (s.respond op r).msgHdr ∧ (s'.respond op r).msgCrc = (s.respond op r).msgCrc ∧
      (s'.respond op r).mData = (s.respond op r).mData ∧ (s'.respond op r).ackRes = (s.respond op r).ackRes ∧
      (s'.respond op r).sensRes = (s.respond op r).sensRes := by
  cases r with
  | failed x => exact ⟨rfl, rfl, rfl, rfl, rfl, rfl, rfl, rfl, rfl, rfl, rfl⟩
  | done retry o => cases o <;> exact ⟨rfl, rfl, rfl, rfl, rfl, rfl, rfl, rfl, rfl, rfl, rfl⟩

/-- Settles O39: the two states get the same answer, and a response does not depend on what else the state holds. -/
theorem responseDependsOnRequestOnly : Obligations.ResponseDependsOnRequestOnly := by
  intro i s s' h
  obtain ⟨r, hs, hs'⟩ | ⟨e, hs, hs'⟩ := exec_sameAnswer i h
  · refine ⟨fun _ hfault => absurd (hs.symm.trans hfault) nofun, fun t hrun => ⟨_, hs', ?_⟩⟩
    obtain rfl := Host.Outcome.next.inj (hs.symm.trans hrun)
    exact respond_registers_congr _ r s s'
  · refine ⟨fun _ hfault => ?_, fun t hrun => absurd (hs.symm.trans hrun) nofun⟩
    obtain rfl := Host.Outcome.fault.inj (hs.symm.trans hfault)
    exact hs'

end Sys2Proof.Machine

namespace Sys2Proof.Machine

/-! ### Loads of the register window (spec/10_state.md R23, R38, R42; spec/20_memory.md R54) -/

/-- A response register is not given to the host while RSP_VALID = 0 (spec/70_reset_and_hazards.md R255). -/
theorem observe_notValid {w : Width} {off : Nat} {x : Word} {s : State} (h : s.rspValid = false) :
    s.observe w off true (.ok x) = .refused (.responseNotValid off) := by
  simp [State.observe, h]

section RegisterLoad

variable {s : State} {off : Nat} {rest : List HostAction} {r : Reg32} (hhost : s.host = .read 0 .b32 off :: rest) (haligned : off % 4 = 0)
  (hplace : reg32At off = some r)
include hhost haligned hplace

/-- A step that loads a register place observes what it holds. -/
theorem step_readReg32 : step s = State.observe .b32 off r.isResponse (valueAt off (s.readReg32 r)) { s with host := rest } := by
  rw [← readReg32_host s rest s.reads r]
  exact (step_of_host hhost).trans (hostRead_reg32 _ haligned hplace)

/-- A register place that holds no value is the fault of reading it. -/
theorem step_loadReg32_none (hnone : s.readReg32 r = none) : step s = .fault (.valuelessRead off) := by
  rw [step_readReg32 hhost haligned hplace, hnone]
  rfl

/-- A response register that holds a value is refused while RSP_VALID = 0. -/
theorem step_loadReg32_notValid {v : Word} (hvalue : s.readReg32 r = some v) (hresponse : r.isResponse = true) (hvalid : s.rspValid = false) :
    step s = .refused (.responseNotValid off) := by
  rw [step_readReg32 hhost haligned hplace, hvalue, hresponse]
  exact observe_notValid hvalid

end RegisterLoad

section ByteLoad

variable {s : State} {off : Nat} {rest : List HostAction} {r : ByteReg} (hhost : s.host = .read 0 .b8 off :: rest)
  (hplace : byteRegAt off = some r)
include hhost hplace

/-- A step that loads a byte place observes what it holds, zero-extended. -/
theorem step_readByte :
    step s = State.observe .b8 off r.isResponse (valueAt off ((s.readByteReg r).map (·.setWidth 32))) { s with host := rest } := by
  rw [step_of_host hhost, ← readByteReg_host s rest s.reads r]
  simp [hostAct, hostRead, hplace]

/-- A byte place that holds `b` records `b`, zero-extended, and changes nothing else. -/
theorem step_loadByte {b : Byte} (hvalue : s.readByteReg r = some b) (hvalid : r.isResponse = true → s.rspValid = true) :
    step s = .next { s with host := rest, reads := ⟨.b8, off, b.setWidth 32⟩ :: s.reads } := by
  rw [step_readByte hhost hplace, hvalue]
  exact observe_ok hvalid

/-- A byte place that holds no value is the fault of reading it. -/
theorem step_loadByte_none (hnone : s.readByteReg r = none) : step s = .fault (.valuelessRead off) := by
  rw [step_readByte hhost hplace, hnone]
  rfl

/-- A byte of a response array that holds a value is refused while RSP_VALID = 0. -/
theorem step_loadByte_notValid {b : Byte} (hvalue : s.readByteReg r = some b) (hresponse : r.isResponse = true) (hvalid : s.rspValid = false) :
    step s = .refused (.responseNotValid off) := by
  rw [step_readByte hhost hplace, hvalue, hresponse]
  exact observe_notValid hvalid

end ByteLoad

/-- Settles O40: each register is the place of its offset. -/
theorem registerLoads : Obligations.RegisterLoads := by
  intro s v rest loads
  have hloads {off : Nat} (r : Reg32) (haligned : off % 4 = 0) (hplace : reg32At off = some r) (hvalid : r.isResponse = true → s.rspValid = true)
      (hvalue : s.readReg32 r = some v) : loads off := fun hhost => step_loadReg32 hhost haligned hplace hvalue hvalid
  refine ⟨hloads .reqHdr rfl rfl nofun, fun hvalid => ?_⟩
  have hresponse {off : Nat} (r : Reg32) (haligned : off % 4 = 0) (hplace : reg32At off = some r) : s.readReg32 r = some v → loads off :=
    hloads r haligned hplace fun _ => hvalid
  exact ⟨hresponse .rspHdr rfl rfl, hresponse .rspErr rfl rfl, hresponse .olen rfl rfl, hresponse .crcRes rfl rfl, hresponse .desc rfl rfl,
    hresponse .msgHdr rfl rfl, hresponse .msgCrc rfl rfl, hresponse .ackRes rfl rfl, hresponse .sensRes rfl rfl⟩

/-- Settles O41: each byte of the three arrays is the place of its offset. -/
theorem byteLoads : Obligations.ByteLoads := by
  intro s b i rest loads
  exact ⟨fun hi hvalue hhost => step_loadByte hhost (byteRegAt_reqBufBase hi) hvalue nofun,
    fun hi hvalid hvalue hhost => step_loadByte hhost (byteRegAt_obufBase hi) hvalue fun _ => hvalid,
    fun hi hvalid hvalue hhost => step_loadByte hhost (byteRegAt_mDataBase hi) hvalue fun _ => hvalid⟩

/-- Settles O43: a reserved place holds 0 and is no response register. -/
theorem reservedPlacesReadZero : Obligations.ReservedPlacesReadZero := by
  intro p hp s rest hhost
  simp only [List.mem_cons, List.not_mem_nil, or_false] at hp
  obtain rfl | rfl | rfl | rfl := hp
  · exact step_loadByte (r := .reserved) hhost rfl rfl nofun
  · exact step_loadByte (r := .reserved) hhost rfl rfl nofun
  · exact step_loadReg32 (r := .reserved) hhost rfl rfl rfl nofun
  · exact step_loadReg32 (r := .reserved) hhost rfl rfl rfl nofun

/-- CTRL_STAT as a number (R26). -/
theorem ctrlStatWord_eq_ofNat (busy rspValid : Bool) :
    ctrlStatWord busy rspValid = BitVec.ofNat 32 ((if busy then 1 else 0) + (if rspValid then 2 else 0)) := by
  cases busy <;> cases rspValid <;> rfl

/-- Settles O50: CTRL_STAT always holds a value, put together from the two flags. -/
theorem controlStatusLoad : Obligations.ControlStatusLoad := by
  intro s rest hhost
  rw [← ctrlStatWord_eq_ofNat]
  exact step_loadReg32 (r := .ctrlStat) hhost rfl rfl rfl nofun

/-- Settles O52: a response register that holds a value is looked at for RSP_VALID. -/
theorem responseLoadsBeforeValidRefused : Obligations.ResponseLoadsBeforeValidRefused := by
  intro s v b i rest hvalid refuses
  have hrefuses {off : Nat} (r : Reg32) (haligned : off % 4 = 0) (hplace : reg32At off = some r) (hresponse : r.isResponse = true)
      (hvalue : s.readReg32 r = some v) : refuses .b32 off := fun hhost => step_loadReg32_notValid hhost haligned hplace hvalue hresponse hvalid
  exact ⟨hrefuses .rspHdr rfl rfl rfl, hrefuses .rspErr rfl rfl rfl, hrefuses .olen rfl rfl rfl, hrefuses .crcRes rfl rfl rfl,
    hrefuses .desc rfl rfl rfl, hrefuses .msgHdr rfl rfl rfl, hrefuses .msgCrc rfl rfl rfl, hrefuses .ackRes rfl rfl rfl,
    hrefuses .sensRes rfl rfl rfl, fun hi hvalue hhost => step_loadByte_notValid hhost (byteRegAt_obufBase hi) hvalue rfl hvalid,
    fun hi hvalue hhost => step_loadByte_notValid hhost (byteRegAt_mDataBase hi) hvalue rfl hvalid⟩

/-! ### Words of the byte arrays (spec/20_memory.md R51, R54) -/

/-- The place `i` bytes into REQ_BUF's words: its byte, or the reserved byte 0x2F after the last. -/
def reqBufPlace (i : Nat) : ByteReg := if i < 31 then .reqBuf i else .reserved

/-- The place `i` bytes into M_DATA's words: its byte, or the reserved byte 0x5F after the last. -/
def mDataPlace (i : Nat) : ByteReg := if i < 11 then .mData i else .reserved

/-- The eight words of REQ_BUF in the window (R23). -/
theorem wordRegsAt_reqBuf : ∀ q, q < 8 → reg32At (0x10 + 4 * q) = none ∧
    wordRegsAt (0x10 + 4 * q) = some (reqBufPlace (4 * q), reqBufPlace (4 * q + 1), reqBufPlace (4 * q + 2), reqBufPlace (4 * q + 3)) := by
  decide

/-- The four words of OBUF in the window (R23). -/
theorem wordRegsAt_obuf : ∀ q, q < 4 → reg32At (0x30 + 4 * q) = none ∧
    wordRegsAt (0x30 + 4 * q) = some (.obuf (4 * q), .obuf (4 * q + 1), .obuf (4 * q + 2), .obuf (4 * q + 3)) := by
  decide

/-- The three words of M_DATA in the window (R23). -/
theorem wordRegsAt_mData : ∀ q, q < 3 → reg32At (0x54 + 4 * q) = none ∧
    wordRegsAt (0x54 + 4 * q) = some (mDataPlace (4 * q), mDataPlace (4 * q + 1), mDataPlace (4 * q + 2), mDataPlace (4 * q + 3)) := by
  decide

/-- What stands at a place of REQ_BUF's words. -/
theorem readByteReg_reqBufPlace (s : State) (i : Nat) :
    s.readByteReg (reqBufPlace i) = if i < 31 then Memory.read s.reqBuf i else some 0#8 := by
  unfold reqBufPlace
  split <;> rfl

/-- What stands at a place of M_DATA's words. -/
theorem readByteReg_mDataPlace (s : State) (i : Nat) :
    s.readByteReg (mDataPlace i) = if i < 11 then Memory.read s.mData i else some 0#8 := by
  unfold mDataPlace
  split <;> rfl

/-- Four bytes of which one holds no value are the first such byte. -/
theorem wordValue_of_none (off : Nat) {v : Nat → Option Byte} {j : Nat} (hj : j < 4) (hnone : v j = none)
    (hfirst : ∀ i, i < j → (v i).isSome = true) : wordValue off (v 0) (v 1) (v 2) (v 3) = .error (off + j) := by
  have hsome (i : Nat) (hi : i < j) : ∃ b, v i = some b := Option.isSome_iff_exists.mp (hfirst i hi)
  match j, hj with
  | 0, _ => simp [wordValue, hnone]
  | 1, _ =>
    obtain ⟨b0, h0⟩ := hsome 0 (by omega)
    simp [wordValue, hnone, h0]
  | 2, _ =>
    obtain ⟨b0, h0⟩ := hsome 0 (by omega)
    obtain ⟨b1, h1⟩ := hsome 1 (by omega)
    simp [wordValue, hnone, h0, h1]
  | 3, _ =>
    obtain ⟨b0, h0⟩ := hsome 0 (by omega)
    obtain ⟨b1, h1⟩ := hsome 1 (by omega)
    obtain ⟨b2, h2⟩ := hsome 2 (by omega)
    simp [wordValue, hnone, h0, h1, h2]

section WordLoad

variable {s : State} {base q : Nat} {rest : List HostAction} {place : Nat → ByteReg} (hhost : s.host = .read 0 .b32 (base + 4 * q) :: rest)
  (haligned : (base + 4 * q) % 4 = 0)
  (hplace : reg32At (base + 4 * q) = none ∧
    wordRegsAt (base + 4 * q) = some (place (4 * q), place (4 * q + 1), place (4 * q + 2), place (4 * q + 3)))
include hhost haligned hplace

/-- A step that loads a word of a byte array observes its four bytes. -/
theorem step_readWord :
    step s = State.observe .b32 (base + 4 * q) (place (4 * q)).isResponse (wordValue (base + 4 * q) (s.readByteReg (place (4 * q)))
      (s.readByteReg (place (4 * q + 1))) (s.readByteReg (place (4 * q + 2))) (s.readByteReg (place (4 * q + 3)))) { s with host := rest } := by
  simp only [← readByteReg_host s rest s.reads]
  rw [step_of_host hhost]
  simp [hostAct, hostRead, haligned, hplace]

/-- Four bytes that hold values record their word, little-endian, and nothing else changes. -/
theorem step_loadWord {b0 b1 b2 b3 : Byte} (h0 : s.readByteReg (place (4 * q)) = some b0) (h1 : s.readByteReg (place (4 * q + 1)) = some b1)
    (h2 : s.readByteReg (place (4 * q + 2)) = some b2) (h3 : s.readByteReg (place (4 * q + 3)) = some b3)
    (hvalid : (place (4 * q)).isResponse = true → s.rspValid = true) :
    step s = .next { s with host := rest, reads := ⟨.b32, base + 4 * q, b3 ++ b2 ++ b1 ++ b0⟩ :: s.reads } := by
  rw [step_readWord hhost haligned hplace, h0, h1, h2, h3]
  exact observe_ok hvalid

/-- A word in which a byte holds no value is the fault of reading the lowest such byte. -/
theorem step_loadWord_none {k : Nat} (hlo : 4 * q ≤ k) (hhi : k < 4 * q + 4) (hnone : s.readByteReg (place k) = none)
    (hfirst : ∀ j, 4 * q ≤ j → j < k → (s.readByteReg (place j)).isSome = true) :
    step s = .fault (.valuelessRead (base + k)) := by
  have hword := wordValue_of_none (base + 4 * q) (v := fun i => s.readByteReg (place (4 * q + i))) (j := k - 4 * q) (by omega)
    (by rwa [Nat.add_sub_cancel' hlo]) fun i hi => hfirst (4 * q + i) (by omega) (by omega)
  rw [step_readWord hhost haligned hplace, show base + k = base + 4 * q + (k - 4 * q) by omega]
  exact congrArg (State.observe .b32 (base + 4 * q) (place (4 * q)).isResponse · { s with host := rest }) hword

end WordLoad

/-- Settles O42: every register, byte and word of the window, each at the place of its offset. -/
theorem valuelessLoadsFault : Obligations.ValuelessLoadsFault := by
  intro s rest faults firstOfWord
  have hreg (off : Nat) (r : Reg32) (haligned : off % 4 = 0) (hplace : reg32At off = some r) (hnone : s.readReg32 r = none) :
      faults .b32 off off := fun hhost => step_loadReg32_none hhost haligned hplace hnone
  refine ⟨hreg _ .reqHdr rfl rfl, hreg _ .rspHdr rfl rfl, hreg _ .rspErr rfl rfl, hreg _ .olen rfl rfl, hreg _ .crcRes rfl rfl,
    hreg _ .desc rfl rfl, hreg _ .msgHdr rfl rfl, hreg _ .msgCrc rfl rfl, hreg _ .ackRes rfl rfl, hreg _ .sensRes rfl rfl,
    fun i hi hnone hhost => step_loadByte_none hhost (byteRegAt_reqBufBase hi) hnone,
    fun i hi hnone hhost => step_loadByte_none hhost (byteRegAt_obufBase hi) hnone,
    fun i hi hnone hhost => step_loadByte_none hhost (byteRegAt_mDataBase hi) hnone, ?_, ?_, ?_⟩
  · rintro q k hq hk ⟨hlo, hhi, hnone, hfirst⟩ hhost
    refine step_loadWord_none hhost (by omega) (wordRegsAt_reqBuf q hq) hlo hhi ?_ fun j hj hjk => ?_
    · rwa [readByteReg_reqBufPlace, if_pos hk]
    · rw [readByteReg_reqBufPlace, if_pos (by omega)]
      exact hfirst j hj hjk
  · rintro q k hq ⟨hlo, hhi, hnone, hfirst⟩ hhost
    exact step_loadWord_none (place := .obuf) hhost (by omega) (wordRegsAt_obuf q hq) hlo hhi hnone hfirst
  · rintro q k hq hk ⟨hlo, hhi, hnone, hfirst⟩ hhost
    refine step_loadWord_none hhost (by omega) (wordRegsAt_mData q hq) hlo hhi ?_ fun j hj hjk => ?_
    · rwa [readByteReg_mDataPlace, if_pos hk]
    · rw [readByteReg_mDataPlace, if_pos (by omega)]
      exact hfirst j hj hjk

end Sys2Proof.Machine

namespace Sys2Proof.Machine

/-! ### Which accesses have a place in the window (spec/20_memory.md R54) -/

/-- R54 allows an access of this width at this offset: one of the window's places stands there. -/
def hasPlace : Width → Nat → Bool
  | .b8, off => (byteRegAt off).isSome
  | .b32, off => off % 4 == 0 && ((reg32At off).isSome || (wordRegsAt off).isSome)
  | .b16, _ => false
  | .b64, _ => false

/-- The one-byte places: the byte arrays and their reserved bytes (R23). -/
theorem byteRegAt_isSome_iff {off : Nat} : (byteRegAt off).isSome = true ↔ (0x10 ≤ off ∧ off ≤ 0x3F) ∨ (0x54 ≤ off ∧ off ≤ 0x5F) := by
  unfold byteRegAt
  repeat' split
  all_goals
    simp only [Option.isSome_some, Option.isSome_none, true_iff, Bool.false_eq_true, false_iff]
    omega

/-- A register place stands where the map says. -/
theorem reg32Row_mem {rows : List (Nat × Reg32)} {off : Nat} {r : Reg32} (h : reg32Row rows off = some r) : (off, r) ∈ rows := by
  induction rows with
  | nil => cases h
  | cons row rows ih =>
    rw [reg32Row] at h
    split at h
    next hoff =>
      cases h
      exact hoff ▸ List.mem_cons_self
    next => exact List.mem_cons_of_mem _ (ih h)

/-- At every multiple of 4 below 0x80 stands a register or a word of a byte array, and nothing at or above 0x80 (R23). -/
theorem wordPlace_iff {off : Nat} (haligned : off % 4 = 0) : ((reg32At off).isSome || (wordRegsAt off).isSome) = true ↔ off < 0x80 := by
  constructor
  · intro h
    obtain h | h := Bool.or_eq_true_iff.mp h
    · obtain ⟨r, hr⟩ := Option.isSome_iff_exists.mp h
      have hmap : ∀ row ∈ reg32Map, row.1 < 0x80 := by decide
      exact hmap _ (reg32Row_mem hr)
    · obtain ⟨⟨r0, r1, r2, r3⟩, hr⟩ := Option.isSome_iff_exists.mp h
      have hbyte := byteRegAt_isSome_iff.mp (Option.isSome_iff_exists.mpr ⟨r0, (wordRegsAt_some hr).1⟩)
      omega
  · intro h
    have hwords : ∀ q, q < 32 → ((reg32At (4 * q)).isSome || (wordRegsAt (4 * q)).isSome) = true := by decide
    rw [← Nat.mul_div_cancel' (Nat.dvd_of_mod_eq_zero haligned)]
    exact hwords (off / 4) (by omega)

/-- The accesses that R54 does not allow, in numbers. -/
theorem hasPlace_eq_false_iff {w : Width} {off : Nat} :
    hasPlace w off = false ↔ w = .b16 ∨ w = .b64 ∨ 0x80 ≤ off ∨ (w = .b32 ∧ off % 4 ≠ 0) ∨
      (w = .b8 ∧ ¬(0x10 ≤ off ∧ off ≤ 0x3F) ∧ ¬(0x54 ≤ off ∧ off ≤ 0x5F)) := by
  cases w with
  | b16 => simp [hasPlace]
  | b64 => simp [hasPlace]
  | b8 =>
    rw [hasPlace, ← Bool.not_eq_true, byteRegAt_isSome_iff]
    simp only [reduceCtorEq, true_and, false_and, false_or]
    omega
  | b32 =>
    by_cases haligned : off % 4 = 0
    · rw [hasPlace, ← Bool.not_eq_true, Bool.and_eq_true, wordPlace_iff haligned]
      simp [haligned]
    · simp [hasPlace, haligned]

/-- A load by host 0. -/
theorem step_read {s : State} {w : Width} {off : Nat} {rest : List HostAction} (hhost : s.host = .read 0 w off :: rest) :
    step s = hostRead w off { s with host := rest } := step_of_host hhost

/-- A store by host 0. -/
theorem step_write {s : State} {w : Width} {off : Nat} {data : BitVec 64} {rest : List HostAction}
    (hhost : s.host = .write 0 w off data :: rest) : step s = hostWrite w off data { s with host := rest } := step_of_host hhost

/-- What a load can do: without a place it is refused; with one it observes a value that does not depend on the host's lists. -/
theorem hostRead_cases (w : Width) (off : Nat) :
    (hasPlace w off = false ∧ ∀ s, hostRead w off s = .refused (.illegalAccess off)) ∨
      (hasPlace w off = true ∧ ∃ (isResponse : Bool) (v : State → Except Nat Word),
        (∀ s, hostRead w off s = s.observe w off isResponse (v s)) ∧ ∀ s acts recs, v { s with host := acts, reads := recs } = v s) := by
  cases w with
  | b16 => exact .inl ⟨rfl, fun _ => rfl⟩
  | b64 => exact .inl ⟨rfl, fun _ => rfl⟩
  | b8 =>
    simp only [hasPlace, hostRead]
    cases byteRegAt off with
    | none => exact .inl ⟨rfl, fun _ => rfl⟩
    | some r => exact .inr ⟨rfl, _, _, fun _ => rfl, fun s acts recs => by rw [readByteReg_host]⟩
  | b32 =>
    simp only [hasPlace, hostRead]
    by_cases haligned : off % 4 = 0
    · simp only [haligned, if_true]
      cases reg32At off with
      | some r => exact .inr ⟨rfl, _, _, fun _ => rfl, fun s acts recs => by rw [readReg32_host]⟩
      | none =>
        cases wordRegsAt off with
        | none => exact .inl ⟨rfl, fun _ => rfl⟩
        | some rs =>
          obtain ⟨r0, r1, r2, r3⟩ := rs
          exact .inr ⟨rfl, _, _, fun _ => rfl, fun s acts recs => by simp only [readByteReg_host]⟩
    · exact .inl ⟨by simp [haligned], fun _ => if_neg haligned⟩

/-- Settles O48: what the first load observed, the second observes again, since only the record has changed. -/
theorem loadsAreIdempotent : Obligations.LoadsAreIdempotent := by
  intro s t w off rest hhost hstep
  rw [step_read hhost] at hstep
  obtain ⟨-, hrefused⟩ | ⟨-, isResponse, v, hread, hhostLists⟩ := hostRead_cases w off
  · cases (hrefused _).symm.trans hstep
  · rw [hread] at hstep
    obtain ⟨x, hx, hvalid, rfl⟩ := observe_next hstep
    have hvalue : v s = .ok x := (hhostLists s _ s.reads).symm.trans hx
    refine ⟨x, rfl, ?_⟩
    rw [step_read (rest := rest) rfl, hread, hhostLists s, hvalue]
    exact observe_ok (by simpa using hvalid)

/-! ### Stores (spec/10_state.md R25, R42; spec/20_memory.md R51, R54; spec/70_reset_and_hazards.md R255) -/

/-- A store to a byte place is never an illegal access. -/
theorem storeBytes_ne_illegal (rs : List (ByteReg × Byte)) (s : State) (off : Nat) : storeBytes rs s ≠ .refused (.illegalAccess off) := by
  unfold storeBytes
  split <;> nofun

/-- Starting a request is never an illegal access. -/
theorem startRequest_ne_illegal (w : Word) (i : Instr) (s : State) (off : Nat) : startRequest w i s ≠ .refused (.illegalAccess off) := by
  unfold startRequest
  split
  next => nofun
  next =>
    obtain ⟨r, -, hrun⟩ | ⟨k, -, -, hrun⟩ := exec_cases i (s.acceptRequest w)
    all_goals
      rw [hrun]
      nofun

/-- A store to a byte place. -/
theorem hostWrite_byte {off : Nat} {r : ByteReg} (data : BitVec 64) (s : State) (hplace : byteRegAt off = some r) :
    hostWrite .b8 off data s = storeBytes [(r, data.setWidth 8)] s := by
  simp [hostWrite, hplace]

/-- A 32-bit store to a word of a byte array stores its four bytes, little-endian. -/
theorem hostWrite_word {off : Nat} {r0 r1 r2 r3 : ByteReg} (data : BitVec 64) (s : State) (haligned : off % 4 = 0)
    (hplace : reg32At off = none ∧ wordRegsAt off = some (r0, r1, r2, r3)) :
    hostWrite .b32 off data s =
      storeBytes [(r0, data.extractLsb' 0 8), (r1, data.extractLsb' 8 8), (r2, data.extractLsb' 16 8), (r3, data.extractLsb' 24 8)] s := by
  simp [hostWrite, haligned, hplace]

/-- A store is refused as illegal exactly where it has no place. -/
theorem hostWrite_illegal_iff {w : Width} {off : Nat} {data : BitVec 64} {s : State} :
    hostWrite w off data s = .refused (.illegalAccess off) ↔ hasPlace w off = false := by
  cases w with
  | b16 => exact iff_of_true rfl rfl
  | b64 => exact iff_of_true rfl rfl
  | b8 =>
    cases hplace : byteRegAt off with
    | none => simp [hasPlace, hostWrite, hplace]
    | some r => simp [hasPlace, hplace, hostWrite_byte data s hplace, storeBytes_ne_illegal]
  | b32 =>
    by_cases haligned : off % 4 = 0
    · cases hreg : reg32At off with
      | some r =>
        cases r with
        | reqHdr => simp [hasPlace, hostWrite, haligned, hreg, startRequest_ne_illegal]
        | _ => simp [hasPlace, hostWrite, haligned, hreg]
      | none =>
        cases hword : wordRegsAt off with
        | none => simp [hasPlace, hostWrite, haligned, hreg, hword]
        | some rs => simp [hasPlace, haligned, hword, hostWrite_word data s haligned ⟨hreg, hword⟩, storeBytes_ne_illegal]
    · simp [hasPlace, hostWrite, haligned]

/-- A load is refused as illegal exactly where it has no place. -/
theorem hostRead_illegal_iff {w : Width} {off : Nat} {s : State} :
    hostRead w off s = .refused (.illegalAccess off) ↔ hasPlace w off = false := by
  obtain ⟨hplace, hrefused⟩ | ⟨hplace, isResponse, v, hread, -⟩ := hostRead_cases w off
  · exact iff_of_true (hrefused s) hplace
  · refine iff_of_false ?_ (by simp [hplace])
    rw [hread]
    unfold State.observe
    split
    next => nofun
    next => split <;> nofun

/-- Settles O45: an access is refused as illegal exactly where it has no place, and those are the accesses of R54. -/
theorem illegalAccessesRefused : Obligations.IllegalAccessesRefused := by
  intro s w off data rest illegal
  refine ⟨fun hhost => ?_, fun hhost => ?_⟩
  · rw [step_read hhost]
    exact hostRead_illegal_iff.trans hasPlace_eq_false_iff
  · rw [step_write hhost]
    exact hostWrite_illegal_iff.trans hasPlace_eq_false_iff

/-- Settles O53: the host's number is looked at first. -/
theorem secondHostRefused : Obligations.SecondHostRefused := by
  intro s who w off data rest hwho
  exact ⟨fun hhost => (step_of_host hhost).trans (if_neg hwho), fun hhost => (step_of_host hhost).trans (if_neg hwho)⟩

/-- While BUSY = 0 every byte is stored in its place. -/
theorem storeBytes_of_idle {s : State} (rs : List (ByteReg × Byte)) (hbusy : s.busy = false) :
    storeBytes rs s = .next (rs.foldl (fun t rb => t.storeByte rb.1 rb.2) s) := by
  simp [storeBytes, hbusy]

/-- While BUSY = 1 a store that touches REQ_BUF is refused. -/
theorem storeBytes_of_busy {rs : List (ByteReg × Byte)} {s : State} (hbusy : s.busy = true) (hrs : rs.any (·.1.isRequest) = true) :
    storeBytes rs s = .refused .writeWhileBusy := by
  simp [storeBytes, hbusy, hrs]

/-- Settles O51: the header, a byte and a word of REQ_BUF are each looked at for BUSY first. -/
theorem requestStoresWhileBusyRefused : Obligations.RequestStoresWhileBusyRefused := by
  intro s data rest i hbusy
  refine ⟨fun hhost => ?_, fun hi hhost => ?_, fun hi hhost => ?_⟩
  · rw [step_storeHeader hhost]
    exact if_pos hbusy
  · rw [step_write hhost, hostWrite_byte data _ (byteRegAt_reqBufBase hi)]
    exact storeBytes_of_busy hbusy rfl
  · rw [step_write hhost, hostWrite_word data _ (by omega) (wordRegsAt_reqBuf i hi)]
    refine storeBytes_of_busy hbusy ?_
    simp [reqBufPlace, show 4 * i < 31 by omega, ByteReg.isRequest]

/-- A store to a place outside REQ_BUF has no effect. -/
theorem storeByte_of_not_request {r : ByteReg} (b : Byte) (s : State) (h : r.isRequest = false) : s.storeByte r b = s := by
  cases r with
  | reqBuf i => cases h
  | _ => rfl

/-- Nor have several, whatever BUSY is. -/
theorem storeBytes_of_not_request {rs : List (ByteReg × Byte)} (s : State) (h : rs.any (·.1.isRequest) = false) :
    storeBytes rs s = .next s := by
  have hkeep : rs.foldl (fun t rb => t.storeByte rb.1 rb.2) s = s := by
    induction rs with
    | nil => rfl
    | cons rb rs ih =>
      obtain ⟨hrb, hrs⟩ := Bool.or_eq_false_iff.mp (List.any_cons ▸ h)
      rw [List.foldl_cons, storeByte_of_not_request _ _ hrb, ih hrs]
  simp [storeBytes, h, hkeep]

/-- A 32-bit place that no store changes: a register other than REQ_HDR, or a word outside REQ_BUF. -/
def readOnlyWord (off : Nat) : Bool :=
  match reg32At off, wordRegsAt off with
  | some r, _ => r != .reqHdr
  | none, some (r0, r1, r2, r3) => !(r0.isRequest || r1.isRequest || r2.isRequest || r3.isRequest)
  | none, none => false

/-- A 32-bit store there goes on with the state as it is. -/
theorem hostWrite_of_readOnlyWord {off : Nat} (data : BitVec 64) (s : State) (haligned : off % 4 = 0) (h : readOnlyWord off = true) :
    hostWrite .b32 off data s = .next s := by
  unfold readOnlyWord at h
  cases hreg : reg32At off with
  | some r =>
    rw [hreg] at h
    cases r with
    | reqHdr => cases h
    | _ => simp [hostWrite, haligned, hreg]
  | none =>
    cases hword : wordRegsAt off with
    | some rs =>
      rw [hreg, hword] at h
      rw [hostWrite_word data s haligned ⟨hreg, hword⟩]
      exact storeBytes_of_not_request s (by simpa [and_assoc] using h)
    | none =>
      rw [hreg, hword] at h
      cases h

/-- Settles O44: the words are read-only ones, and the bytes lie outside REQ_BUF. -/
theorem readOnlyStoresHaveNoEffect : Obligations.ReadOnlyStoresHaveNoEffect := by
  intro s data rest off
  refine ⟨fun hoff hhost => ?_, fun hoff hhost => ?_⟩
  all_goals rw [step_write hhost]
  · have hwords : ∀ o ∈ ([0x04, 0x08, 0x0C, 0x30, 0x34, 0x38, 0x3C, 0x40, 0x44, 0x48, 0x4C, 0x50, 0x54, 0x58, 0x5C, 0x60, 0x64, 0x68, 0x6C,
        0x70, 0x74, 0x78, 0x7C] : List Nat), o % 4 = 0 ∧ readOnlyWord o = true := by decide
    obtain ⟨haligned, hword⟩ := hwords off hoff
    exact hostWrite_of_readOnlyWord data _ haligned hword
  · obtain ⟨r, hplace⟩ := Option.isSome_iff_exists.mp (byteRegAt_isSome_iff (off := off).mpr (by omega))
    have hrequest : r.isRequest = false := by
      cases r with
      | reqBuf i =>
        obtain ⟨hi, rfl⟩ := byteRegAt_reqBuf hplace
        omega
      | _ => rfl
    exact (hostWrite_byte data _ hplace).trans (storeBytes_of_not_request _ (by simp [hrequest]))

/-- Settles O46: the place is REQ_BUF[i], which takes the low byte of the data. -/
theorem bufferByteStore : Obligations.BufferByteStore := by
  intro s i data rest hi hbusy hhost
  refine ⟨_, (step_write hhost).trans (hostWrite_reqBuf (s := { s with host := rest }) hi hbusy data), fun j => ?_, rfl⟩
  rw [Memory.read_write, BitVec.setWidth_eq_extractLsb' (by decide)]

/-- A store to a place of REQ_BUF's words: its byte there, and nothing at the reserved byte. -/
theorem read_storeByte_reqBufPlace (s : State) (i : Nat) (b : Byte) (j : Nat) :
    Memory.read (s.storeByte (reqBufPlace i) b).reqBuf j = if j = i ∧ i < 31 then some b else Memory.read s.reqBuf j := by
  unfold reqBufPlace
  split
  next h => rw [State.storeByte_reqBuf_reqBuf, Memory.read_write]; simp [h]
  next h => rw [State.storeByte_reserved_reqBuf]; simp [h]

/-- Stores to byte places change REQ_BUF at most. -/
theorem foldl_storeByte_eq (rs : List (ByteReg × Byte)) (s : State) :
    rs.foldl (fun t rb => t.storeByte rb.1 rb.2) s = { s with reqBuf := (rs.foldl (fun t rb => t.storeByte rb.1 rb.2) s).reqBuf } := by
  induction rs generalizing s with
  | nil => rfl
  | cons rb rs ih =>
    obtain ⟨r, b⟩ := rb
    cases r
    all_goals exact ih _

/-- A word stored to REQ_BUF while BUSY is 0. -/
theorem hostWrite_reqBufWord {s : State} {q : Nat} (hq : q < 8) (hbusy : s.busy = false) (data : BitVec 64) :
    ∃ t, hostWrite .b32 (0x10 + 4 * q) data s = .next t ∧ t = { s with reqBuf := t.reqBuf } ∧
      ∀ j, Memory.read t.reqBuf j =
        if 4 * q ≤ j ∧ j < 4 * q + 4 ∧ j < 31 then some (data.extractLsb' (8 * (j - 4 * q)) 8) else Memory.read s.reqBuf j := by
  rw [hostWrite_word data s (by omega) (wordRegsAt_reqBuf q hq), storeBytes_of_idle _ hbusy]
  refine ⟨_, rfl, foldl_storeByte_eq _ s, fun j => ?_⟩
  · simp only [List.foldl_cons, List.foldl_nil, read_storeByte_reqBufPlace]
    by_cases hj : 4 * q ≤ j ∧ j < 4 * q + 4
    · obtain ⟨i, rfl⟩ := Nat.exists_eq_add_of_le hj.1
      have hi : i < 4 := by omega
      match i, hi with
      | 0, _ => simp
      | 1, _ => simp
      | 2, _ => simp
      | 3, _ => simp
    · rw [if_neg (by omega), if_neg (by omega), if_neg (by omega), if_neg (by omega), if_neg (by omega)]

/-- The fourth byte of a word: the byte there, or 0 at the reserved place after the array. -/
theorem ite_reserved_eq_some {last : Bool} {inside : Prop} [Decidable inside] {v : Option Byte} {b : Byte}
    (h : if last then b = 0#8 else v = some b) (hlast : last = true ↔ ¬inside) : (if inside then v else some 0#8) = some b := by
  split at h
  next hreserved => rw [if_neg (hlast.mp hreserved), h]
  next hinside => rw [if_pos (not_not.mp (mt hlast.mpr hinside)), h]

/-- No place of REQ_BUF's words is a response register. -/
theorem reqBufPlace_isResponse (i : Nat) : (reqBufPlace i).isResponse = false := by
  unfold reqBufPlace
  split <;> rfl

/-- Settles O47: a word of a byte array is its four places, taken lowest first. -/
theorem bufferWordAccess : Obligations.BufferWordAccess := by
  intro s q data rest
  refine ⟨fun hq hbusy hhost => ?_, ?_⟩
  · rw [step_write hhost]
    exact hostWrite_reqBufWord (s := { s with host := rest }) hq hbusy data
  · intro b0 b1 b2 b3 holds loads
    refine ⟨?_, ?_, ?_⟩
    · rintro hq ⟨h0, h1, h2, h3⟩ hhost
      refine step_loadWord hhost (by omega) (wordRegsAt_reqBuf q hq) ?_ ?_ ?_ ?_ (by simp [reqBufPlace_isResponse])
      all_goals rw [readByteReg_reqBufPlace]
      · rwa [if_pos (by omega)]
      · rwa [if_pos (by omega)]
      · rwa [if_pos (by omega)]
      · exact ite_reserved_eq_some h3 (by rw [beq_iff_eq]; omega)
    · rintro hq hvalid ⟨h0, h1, h2, h3⟩ hhost
      exact step_loadWord (place := .obuf) hhost (by omega) (wordRegsAt_obuf q hq) h0 h1 h2 h3 fun _ => hvalid
    · rintro hq hvalid ⟨h0, h1, h2, h3⟩ hhost
      refine step_loadWord hhost (by omega) (wordRegsAt_mData q hq) ?_ ?_ ?_ ?_ fun _ => hvalid
      all_goals rw [readByteReg_mDataPlace]
      · rwa [if_pos (by omega)]
      · rwa [if_pos (by omega)]
      · rwa [if_pos (by omega)]
      · exact ite_reserved_eq_some h3 (by rw [beq_iff_eq]; omega)

end Sys2Proof.Machine

namespace Sys2Proof.Machine

/-! ### The end of a run (spec/70_reset_and_hazards.md R260) -/

/-- With a request among the pending actions no run has ended. -/
theorem runEnded_of_request {s : State} (h : ∃ b ∈ s.host, b.startsRequest = true) : s.runEnded = false := by
  rw [State.runEnded, List.any_eq_true.mpr h, Bool.not_true, Bool.and_false]

/-- With a response and no request among the pending actions the run has ended. -/
theorem runEnded_of_last {s : State} (hvalid : s.rspValid = true) (h : ∀ b ∈ s.host, b.startsRequest = false) : s.runEnded = true := by
  have hnone : s.host.any HostAction.startsRequest = false := List.any_eq_false.mpr fun b hb => by simp [h b hb]
  rw [State.runEnded, hvalid, hnone]
  rfl

/-- Settles O54: before the step its own request is pending, and after it only those of the remaining actions; the host's reads until then
stand with the request. -/
theorem runEndsWithLastResponse : Obligations.RunEndsWithLastResponse := by
  refine ⟨fun s => runEnded_of_not_valid, fun s t a rest hhost ha hstep => ?_⟩
  obtain ⟨w, i, hstart⟩ := step_startsRequest hhost ha
  obtain ⟨hvalid, hrest, -, hreads⟩ := startRequest_record (hstart.symm.trans hstep)
  replace hrest : t.host = rest := hrest
  have hbefore : s.runEnded = false := runEnded_of_request ⟨a, by simp [hhost], ha⟩
  refine ⟨fun hmore => ⟨hbefore, runEnded_of_request (hrest ▸ hmore)⟩, fun hlast => ?_⟩
  have hafter : t.runEnded = true := runEnded_of_last hvalid (hrest ▸ hlast)
  refine ⟨hbefore, hafter, fun n => ?_⟩
  rw [runObservation_next hbefore hstep, runObservation_ended hafter, State.observed, hreads]

/-! ### The assembler (spec/30_encoding.md R83; spec/70_reset_and_hazards.md R252) -/

/-- A legal header word as R83 writes it: each field in its place, bit by bit. -/
theorem header_eq_or (f a : Byte) (len : BitVec 5) (op : BitVec 4) :
    header f a len op = f.setWidth 32 <<< 24 ||| a.setWidth 32 <<< 16 ||| len.setWidth 32 <<< 8 ||| op.setWidth 32 := by
  apply BitVec.eq_of_getLsbD_eq
  intro i hi
  simp only [header, headerOfFields, BitVec.getLsbD_append, BitVec.getLsbD_or, BitVec.getLsbD_shiftLeft, BitVec.getLsbD_setWidth,
    BitVec.getLsbD_zero]
  interval_cases i <;> simp

/-- The request of a header's fields and a list, in the words of R83. -/
theorem requestOf_eq (f a : Byte) (op : BitVec 4) (d : List Byte) :
    requestOf f a op d =
      if d.length ≤ 31 then some ⟨f.setWidth 32 <<< 24 ||| a.setWidth 32 <<< 16 ||| BitVec.ofNat 32 d.length <<< 8 ||| op.setWidth 32, d⟩
      else none := by
  by_cases h : d.length ≤ 31
  · have hlen : (BitVec.ofNat 5 d.length).setWidth 32 = BitVec.ofNat 32 d.length := by
      apply BitVec.eq_of_toNat_eq
      rw [BitVec.toNat_setWidth, BitVec.toNat_ofNat, BitVec.toNat_ofNat]
      omega
    rw [requestOf, if_pos (show d.length ≤ bufMax from h), if_pos h, header_eq_or, hlen]
  · rw [requestOf, if_neg (show ¬d.length ≤ bufMax from h), if_neg h]

/-- Settles O57: each line is the request of its fields. -/
theorem assembledHeaders : Obligations.AssembledHeaders := fun a f _ d =>
  ⟨requestOf_eq 0#8 0#8 0x1#4 d, requestOf_eq 0#8 a 0x2#4 [], requestOf_eq f 0#8 0x3#4 [], requestOf_eq f a 0x4#4 d, requestOf_eq f a 0x5#4 d,
    requestOf_eq 0#8 a 0x6#4 [], requestOf_eq f 0#8 0x7#4 d, rfl⟩

/-- One step of a run is a step. -/
theorem run_one (s : State) : Sys2Proof.core.run 1 s = step s := by
  cases h : step s with
  | next t => simp [Host.Core.run, Sys2Proof.core, h]
  | fault r => simp [Host.Core.run, Sys2Proof.core, h]
  | refused r => simp [Host.Core.run, Sys2Proof.core, h]

/-- A step that goes on is followed by the rest of the run. -/
theorem run_succ_of_next {s t : State} (k : Nat) (h : step s = .next t) : Sys2Proof.core.run (k + 1) s = Sys2Proof.core.run k t := by
  simp [Host.Core.run, Sys2Proof.core, h]

/-- The store of one buffer byte of a request. -/
theorem step_bufferWrite {s : State} {i : Nat} {b : Byte} {rest : List HostAction} (hi : i < 31) (hbusy : s.busy = false)
    (hhost : s.host = .write 0 .b8 (reqBufBase + i) (b.setWidth 64) :: rest) :
    step s = .next { s with host := rest, reqBuf := Memory.write s.reqBuf i b } := by
  have hb : (b.setWidth 64).setWidth 8 = b := by rw [BitVec.setWidth_setWidth_of_le _ (by decide), BitVec.setWidth_eq]
  have hwrite := hostWrite_reqBuf (s := { s with host := rest }) hi hbusy (b.setWidth 64)
  rw [hb] at hwrite
  exact (step_write hhost).trans hwrite

/-- The stores of a request's buffer bytes, a step each, leave the bytes in REQ_BUF and change nothing else. -/
theorem run_bufferWrites (bs : List Byte) {i : Nat} {s : State} {acts : List HostAction} (k : Nat) (hmax : i + bs.length ≤ 31)
    (hbusy : s.busy = false) (hhost : s.host = bufferWrites i bs ++ acts) :
    Sys2Proof.core.run (bs.length + k) s = Sys2Proof.core.run k { s with host := acts, reqBuf := Memory.writeBytes s.reqBuf i bs } := by
  induction bs generalizing i s with
  | nil =>
    obtain rfl : s.host = acts := hhost
    simp [Memory.writeBytes]
  | cons b bs ih =>
    simp only [List.length_cons] at hmax
    have hstep := step_bufferWrite (rest := bufferWrites (i + 1) bs ++ acts) (by omega) hbusy hhost
    rw [List.length_cons, Nat.add_right_comm]
    exact (run_succ_of_next _ hstep).trans (ih (by omega) hbusy rfl)

/-- Settles O58: the bytes are stored one step each, and the last step stores the header, which starts its instruction. -/
theorem assembledRequestRuns : Obligations.AssembledRequestRuns := by
  intro s r rest hmax hbusy hhost
  refine ⟨Memory.writeBytes s.reqBuf 0 r.bytes, fun i => by simp [Memory.read_writeBytes], ?_⟩
  rw [Request.actions, List.append_assoc] at hhost
  rw [run_bufferWrites r.bytes 1 (by omega) hbusy hhost, run_one, step_storeHeader rfl, BitVec.setWidth_setWidth_of_le _ (by decide),
    BitVec.setWidth_eq]
  exact startRequest_of_idle (s := { s with reqBuf := Memory.writeBytes s.reqBuf 0 r.bytes }) rest hbusy

/-! ### Steps that start an instruction (spec/10_state.md R24, R39; spec/30_encoding.md R78, R79) -/

/-- Settles O7: the stored word decodes to the instruction it encodes. -/
theorem stepRunsStoredHeader : Obligations.StepRunsStoredHeader := by
  intro s i w data rest hwf hencode hdata hhost hbusy
  have hdecode : decodeHeader w = i := Except.ok.inj (hencode ▸ decodeInvertsEncode i hwf)
  rw [step_storeHeader hhost, hdata, hdecode]
  exact startRequest_of_idle rest hbusy

/-- The header of `lookup b` (R83). -/
theorem lookupHeader_eq (b : Byte) : lookupHeader b = b ++ 0x000003#24 := by
  revert b; decide

/-- The header of `cack b` (R83). -/
theorem ackHeader_eq (b : Byte) : ackHeader b = 0x00#8 ++ b ++ 0x0006#16 := by
  revert b; decide

/-- Settles O8: a wire byte starts the instruction its map gives it, or the request that fails. -/
theorem stepRunsWireByte : Obligations.StepRunsWireByte := by
  intro s b rest hbusy
  have hfunction (i : Instr) (hinstr : functionByteInstr b = i) (hhost : s.host = .functionByte b :: rest) :
      step s = exec i (s.underWay rest (b ++ 0x000003#24)) := by
    rw [← lookupHeader_eq, ← hinstr]
    exact (step_of_host hhost).trans (startRequest_of_idle rest hbusy)
  have hack (i : Instr) (hinstr : ackByteInstr b = i) (hhost : s.host = .ackByte b :: rest) :
      step s = exec i (s.underWay rest (0x00#8 ++ b ++ 0x0006#16)) := by
    rw [← ackHeader_eq, ← hinstr]
    exact (step_of_host hhost).trans (startRequest_of_idle rest hbusy)
  exact ⟨fun i h => hfunction i (by rw [functionByteInstr, h]), fun e h => hfunction _ (by rw [functionByteInstr, h]),
    fun i h => hack i (by rw [ackByteInstr, h]), fun e h => hack _ (by rw [ackByteInstr, h])⟩

/-! ### Reset (spec/10_state.md R41; spec/70_reset_and_hazards.md R250, R251) -/

/-- Settles O9: whatever the state, what a reset leaves holds no value and is idle. -/
theorem resetAbandonsTheOperation : Obligations.ResetAbandonsTheOperation := by
  intro s rest hhost
  obtain ⟨hrspHdr, hrspErr, hnone⟩ := (resetKeepingHost_inv { s with host := rest }).quiet rfl
  exact ⟨_, step_of_host hhost, rfl, fun _ => rfl, rfl, rfl, hrspHdr, hrspErr, hnone, rfl, rfl, rfl⟩

/-- Settles O10: every place of the window, read in the state after reset. -/
theorem resetValues : Obligations.ResetValues := by
  refine ⟨fun r => ?_, fun r => ?_, rfl, rfl, rfl⟩
  · cases r <;> rfl
  · cases r <;> rfl

/-! ### The function code map, sample words and sample lines (spec/30_encoding.md R70 to R84) -/

/-- A byte is in the function code map exactly when the catalog knows it: 256 bytes, checked one by one. -/
theorem byteRow_functionByteMap_isSome (b : Byte) : (byteRow functionByteMap b).isSome = (lookup b).isSome := by
  revert b; decide

/-- Settles O21: a byte decodes when it is in the map. -/
theorem functionByteMapIsTheCatalog : Obligations.FunctionByteMapIsTheCatalog := by
  intro b
  rw [← byteRow_functionByteMap_isSome, decodeFunctionByte]
  cases byteRow functionByteMap b with
  | none => simp
  | some i => simp

/-- Settles O3: fixed words, decoded. -/
theorem sampleWordsDecode : Obligations.SampleWordsDecode := ⟨rfl, rfl, rfl, rfl, rfl, rfl, rfl, rfl, rfl, rfl, rfl, rfl, rfl, rfl⟩

/-- Settles O59: fixed lines, parsed. -/
theorem sampleLinesParse : Obligations.SampleLinesParse := ⟨rfl, rfl, rfl, rfl, rfl, rfl, rfl⟩

end Sys2Proof.Machine
